-- ==== Sys2Proof/Word.lean ====
section
/-!
DEFINITION. The word types of the S1C17 core (spec 00_scope.md rules R4, R5) and their plainest
arithmetic. Addresses, general registers, PC and SP are 24 bits wide; every sum and difference on
them is modulo 2^24, which is what `BitVec` addition and subtraction compute.
-/

namespace Sys2Proof

/-- A 24-bit value: a general register, PC, SP or an address (R4, R21 to R24). -/
abbrev Word := BitVec 24

/-- One byte of memory or of an 8-bit register. -/
abbrev Byte := BitVec 8

end Sys2Proof
end

