-- ==== Sys2Proof/Config.lean ====
section
/-!
DEFINITION. What an implementation fixes and the values the spec leaves open. The plain constants are
the ones R4 fixes for every S1C17 core. The opaque constants have no body: nothing can be proved of
their values, so a statement that mentions one holds for every value (spec 93, draws W1 to W3).
-/

namespace Sys2Proof

/-- The three kinds of coprocessor command: `ld.cw`, `ld.ca`, `ld.cf` (R420). -/
inductive CoproKind where
  | cw | ca | cf
  deriving DecidableEq, Repr

/-- One command presented to the coprocessor: its kind and the two 24-bit data (R420). -/
structure CoproCall where
  kind  : CoproKind
  data0 : Word
  data1 : Word
  deriving DecidableEq, Repr

namespace Config

/-- First address of the core-reserved I/O area (R4, R69). -/
def coreAreaBase : Word := 0xfffc00

/-- Where a debug interrupt continues (R4, R460). -/
def debugEntryAddress : Word := 0xfffc00

/-- The value of the read-only processor ID register IDIR (R35). -/
def idirValue : Byte := 0x10

/-- DESIGN CHOICE (log entry 3): the vector table base of State.reset; the chip's pins set it (R34).
The value is that of the vectors' test environment (spec 95 section 0). -/
def resetTtbr : Word := 0x008000

/-- DESIGN CHOICE (log entry 4): the debug RAM base of State.reset; a chip parameter (R36). The value
is that of the vectors' test environment (spec 95 section 0). -/
def resetDbram : Word := 0x000fc0

/-- FREE VALUE (log entry 8): C after a shift by 0 bits, drawn at each execution (R321, W1). The
argument is the model's draw counter. -/
opaque freeCarry : Nat → Bool

/-- FREE VALUE (log entry 9): which of the lags 1, 2, 3 an `ei` or `di` draws for IE_LAG, counted from
0 (R503, W2). The argument is the model's draw counter. -/
opaque freeLag : Nat → Fin 3

/-- FREE VALUE (log entry 10): the 24-bit result the coprocessor answers (R420, W3). The arguments
are the draw counter and every command since reset, newest first, this one included: an attached
coprocessor answers as its own state, which those commands made, decides. -/
opaque coproResult : Nat → List CoproCall → Word

/-- FREE VALUE (log entry 10): the flags C, V, Z, N the coprocessor answers, C in bit 3 (R420, W3). -/
opaque coproFlags : Nat → List CoproCall → BitVec 4

end Config

end Sys2Proof
end

