-- ==== Sys2Proof/Syntax.lean ====
section
/-!
DEFINITION. The whole instruction set: one constructor of `Instr` for each of the 184 rows of
spec/opcode_table.json, in the table's order. Operands stand in the order the assembler writes them
(R9, R120). `Delayed` in a name is the `.d` form, `C` and `NC` are the `/c` and `/nc` forms.
-/

namespace Sys2Proof

/-- The eight general registers (R21); none is hard-wired and none is an alias. -/
inductive Reg where
  | r0 | r1 | r2 | r3 | r4 | r5 | r6 | r7
  deriving DecidableEq, Repr

/-- An instruction of the core. Each docstring gives the assembler form and the spec's rule. -/
inductive Instr where
  /-- `ld.b %rd,[%rb]` (R164) -/
  | ldbLoadInd (rd : Reg) (rb : Reg)
  /-- `ld.b %rd,[%rb]+` (R165) -/
  | ldbLoadPostInc (rd : Reg) (rb : Reg)
  /-- `ld.b %rd,[%rb]-` (R166) -/
  | ldbLoadPostDec (rd : Reg) (rb : Reg)
  /-- `ld.b %rd,-[%rb]` (R167) -/
  | ldbLoadPreDec (rd : Reg) (rb : Reg)
  /-- `ld.ub %rd,[%rb]` (R177) -/
  | ldubLoadInd (rd : Reg) (rb : Reg)
  /-- `ld.ub %rd,[%rb]+` (R178) -/
  | ldubLoadPostInc (rd : Reg) (rb : Reg)
  /-- `ld.ub %rd,[%rb]-` (R179) -/
  | ldubLoadPostDec (rd : Reg) (rb : Reg)
  /-- `ld.ub %rd,-[%rb]` (R180) -/
  | ldubLoadPreDec (rd : Reg) (rb : Reg)
  /-- `ld %rd,[%rb]` (R185) -/
  | ldLoadInd (rd : Reg) (rb : Reg)
  /-- `ld %rd,[%rb]+` (R186) -/
  | ldLoadPostInc (rd : Reg) (rb : Reg)
  /-- `ld %rd,[%rb]-` (R187) -/
  | ldLoadPostDec (rd : Reg) (rb : Reg)
  /-- `ld %rd,-[%rb]` (R188) -/
  | ldLoadPreDec (rd : Reg) (rb : Reg)
  /-- `ld.a %rd,[%rb]` (R217) -/
  | ldaLoadInd (rd : Reg) (rb : Reg)
  /-- `ld.a %rd,[%rb]+` (R218) -/
  | ldaLoadPostInc (rd : Reg) (rb : Reg)
  /-- `ld.a %rd,[%rb]-` (R219) -/
  | ldaLoadPostDec (rd : Reg) (rb : Reg)
  /-- `ld.a %rd,-[%rb]` (R220) -/
  | ldaLoadPreDec (rd : Reg) (rb : Reg)
  /-- `ld.b [%rb],%rs` (R170) -/
  | ldbStoreInd (rb : Reg) (rs : Reg)
  /-- `ld.b [%rb]+,%rs` (R171) -/
  | ldbStorePostInc (rb : Reg) (rs : Reg)
  /-- `ld.b [%rb]-,%rs` (R172) -/
  | ldbStorePostDec (rb : Reg) (rs : Reg)
  /-- `ld.b -[%rb],%rs` (R173) -/
  | ldbStorePreDec (rb : Reg) (rs : Reg)
  /-- `ld [%rb],%rs` (R191) -/
  | ldStoreInd (rb : Reg) (rs : Reg)
  /-- `ld [%rb]+,%rs` (R192) -/
  | ldStorePostInc (rb : Reg) (rs : Reg)
  /-- `ld [%rb]-,%rs` (R193) -/
  | ldStorePostDec (rb : Reg) (rs : Reg)
  /-- `ld -[%rb],%rs` (R194) -/
  | ldStorePreDec (rb : Reg) (rs : Reg)
  /-- `ld.a [%rb],%rs` (R223) -/
  | ldaStoreInd (rb : Reg) (rs : Reg)
  /-- `ld.a [%rb]+,%rs` (R224) -/
  | ldaStorePostInc (rb : Reg) (rs : Reg)
  /-- `ld.a [%rb]-,%rs` (R225) -/
  | ldaStorePostDec (rb : Reg) (rs : Reg)
  /-- `ld.a -[%rb],%rs` (R226) -/
  | ldaStorePreDec (rb : Reg) (rs : Reg)
  /-- `ld.b %rd,%rs` (R163) -/
  | ldbRR (rd : Reg) (rs : Reg)
  /-- `ld.ub %rd,%rs` (R176) -/
  | ldubRR (rd : Reg) (rs : Reg)
  /-- `ld %rd,%rs` (R183) -/
  | ldRR (rd : Reg) (rs : Reg)
  /-- `ld.a %rd,%rs` (R211) -/
  | ldaRR (rd : Reg) (rs : Reg)
  /-- `cv.la %rd,%rs` (R414) -/
  | cvla (rd : Reg) (rs : Reg)
  /-- `cv.ab %rd,%rs` (R411) -/
  | cvab (rd : Reg) (rs : Reg)
  /-- `cv.ls %rd,%rs` (R415) -/
  | cvls (rd : Reg) (rs : Reg)
  /-- `cv.as %rd,%rs` (R412) -/
  | cvas (rd : Reg) (rs : Reg)
  /-- `cv.al %rd,%rs` (R413) -/
  | cval (rd : Reg) (rs : Reg)
  /-- `and %rd,%rs` (R251) -/
  | andRR (rd : Reg) (rs : Reg)
  /-- `and/c %rd,%rs` (R252) -/
  | andC (rd : Reg) (rs : Reg)
  /-- `and/nc %rd,%rs` (R253) -/
  | andNC (rd : Reg) (rs : Reg)
  /-- `and %rd,sign7` (R254) -/
  | andImm (rd : Reg) (sign7 : BitVec 7)
  /-- `or %rd,%rs` (R255) -/
  | orRR (rd : Reg) (rs : Reg)
  /-- `or/c %rd,%rs` (R256) -/
  | orC (rd : Reg) (rs : Reg)
  /-- `or/nc %rd,%rs` (R257) -/
  | orNC (rd : Reg) (rs : Reg)
  /-- `or %rd,sign7` (R258) -/
  | orImm (rd : Reg) (sign7 : BitVec 7)
  /-- `xor %rd,%rs` (R259) -/
  | xorRR (rd : Reg) (rs : Reg)
  /-- `xor/c %rd,%rs` (R260) -/
  | xorC (rd : Reg) (rs : Reg)
  /-- `xor/nc %rd,%rs` (R261) -/
  | xorNC (rd : Reg) (rs : Reg)
  /-- `xor %rd,sign7` (R262) -/
  | xorImm (rd : Reg) (sign7 : BitVec 7)
  /-- `not %rd,%rs` (R263) -/
  | notRR (rd : Reg) (rs : Reg)
  /-- `not/c %rd,%rs` (R264) -/
  | notC (rd : Reg) (rs : Reg)
  /-- `not/nc %rd,%rs` (R265) -/
  | notNC (rd : Reg) (rs : Reg)
  /-- `not %rd,sign7` (R266) -/
  | notImm (rd : Reg) (sign7 : BitVec 7)
  /-- `sr %rd,%rs` (R322) -/
  | srRR (rd : Reg) (rs : Reg)
  /-- `sr %rd,imm7` (R323) -/
  | srImm (rd : Reg) (imm7 : BitVec 7)
  /-- `sa %rd,%rs` (R324) -/
  | saRR (rd : Reg) (rs : Reg)
  /-- `sa %rd,imm7` (R325) -/
  | saImm (rd : Reg) (imm7 : BitVec 7)
  /-- `sl %rd,%rs` (R326) -/
  | slRR (rd : Reg) (rs : Reg)
  /-- `sl %rd,imm7` (R327) -/
  | slImm (rd : Reg) (imm7 : BitVec 7)
  /-- `swap %rd,%rs` (R328) -/
  | swap (rd : Reg) (rs : Reg)
  /-- `add %rd,%rs` (R274) -/
  | addRR (rd : Reg) (rs : Reg)
  /-- `add/c %rd,%rs` (R275) -/
  | addC (rd : Reg) (rs : Reg)
  /-- `add/nc %rd,%rs` (R276) -/
  | addNC (rd : Reg) (rs : Reg)
  /-- `add %rd,imm7` (R277) -/
  | addImm (rd : Reg) (imm7 : BitVec 7)
  /-- `adc %rd,%rs` (R278) -/
  | adcRR (rd : Reg) (rs : Reg)
  /-- `adc/c %rd,%rs` (R279) -/
  | adcC (rd : Reg) (rs : Reg)
  /-- `adc/nc %rd,%rs` (R280) -/
  | adcNC (rd : Reg) (rs : Reg)
  /-- `adc %rd,imm7` (R281) -/
  | adcImm (rd : Reg) (imm7 : BitVec 7)
  /-- `sub %rd,%rs` (R282) -/
  | subRR (rd : Reg) (rs : Reg)
  /-- `sub/c %rd,%rs` (R283) -/
  | subC (rd : Reg) (rs : Reg)
  /-- `sub/nc %rd,%rs` (R284) -/
  | subNC (rd : Reg) (rs : Reg)
  /-- `sub %rd,imm7` (R285) -/
  | subImm (rd : Reg) (imm7 : BitVec 7)
  /-- `sbc %rd,%rs` (R286) -/
  | sbcRR (rd : Reg) (rs : Reg)
  /-- `sbc/c %rd,%rs` (R287) -/
  | sbcC (rd : Reg) (rs : Reg)
  /-- `sbc/nc %rd,%rs` (R288) -/
  | sbcNC (rd : Reg) (rs : Reg)
  /-- `sbc %rd,imm7` (R289) -/
  | sbcImm (rd : Reg) (imm7 : BitVec 7)
  /-- `cmp %rd,%rs` (R290) -/
  | cmpRR (rd : Reg) (rs : Reg)
  /-- `cmp/c %rd,%rs` (R291) -/
  | cmpC (rd : Reg) (rs : Reg)
  /-- `cmp/nc %rd,%rs` (R292) -/
  | cmpNC (rd : Reg) (rs : Reg)
  /-- `cmp %rd,sign7` (R293) -/
  | cmpImm (rd : Reg) (sign7 : BitVec 7)
  /-- `cmc %rd,%rs` (R294) -/
  | cmcRR (rd : Reg) (rs : Reg)
  /-- `cmc/c %rd,%rs` (R295) -/
  | cmcC (rd : Reg) (rs : Reg)
  /-- `cmc/nc %rd,%rs` (R296) -/
  | cmcNC (rd : Reg) (rs : Reg)
  /-- `cmc %rd,sign7` (R297) -/
  | cmcImm (rd : Reg) (sign7 : BitVec 7)
  /-- `add.a %rd,%rs` (R299) -/
  | addaRR (rd : Reg) (rs : Reg)
  /-- `add.a/c %rd,%rs` (R300) -/
  | addaC (rd : Reg) (rs : Reg)
  /-- `add.a/nc %rd,%rs` (R301) -/
  | addaNC (rd : Reg) (rs : Reg)
  /-- `add.a %rd,imm7` (R302) -/
  | addaImm (rd : Reg) (imm7 : BitVec 7)
  /-- `add.a %sp,%rs` (R303) -/
  | addaSpRs (rs : Reg)
  /-- `add.a %sp,imm7` (R304) -/
  | addaSpImm (imm7 : BitVec 7)
  /-- `sub.a %rd,%rs` (R305) -/
  | subaRR (rd : Reg) (rs : Reg)
  /-- `sub.a/c %rd,%rs` (R306) -/
  | subaC (rd : Reg) (rs : Reg)
  /-- `sub.a/nc %rd,%rs` (R307) -/
  | subaNC (rd : Reg) (rs : Reg)
  /-- `sub.a %rd,imm7` (R308) -/
  | subaImm (rd : Reg) (imm7 : BitVec 7)
  /-- `sub.a %sp,%rs` (R309) -/
  | subaSpRs (rs : Reg)
  /-- `sub.a %sp,imm7` (R310) -/
  | subaSpImm (imm7 : BitVec 7)
  /-- `cmp.a %rd,%rs` (R311) -/
  | cmpaRR (rd : Reg) (rs : Reg)
  /-- `cmp.a/c %rd,%rs` (R312) -/
  | cmpaC (rd : Reg) (rs : Reg)
  /-- `cmp.a/nc %rd,%rs` (R313) -/
  | cmpaNC (rd : Reg) (rs : Reg)
  /-- `cmp.a %rd,imm7` (R314) -/
  | cmpaImm (rd : Reg) (imm7 : BitVec 7)
  /-- `ld.cw %rd,%rs` (R421) -/
  | ldcwRR (rd : Reg) (rs : Reg)
  /-- `ld.cw %rd,imm7` (R422) -/
  | ldcwImm (rd : Reg) (imm7 : BitVec 7)
  /-- `ld.ca %rd,%rs` (R423) -/
  | ldcaRR (rd : Reg) (rs : Reg)
  /-- `ld.ca %rd,imm7` (R424) -/
  | ldcaImm (rd : Reg) (imm7 : BitVec 7)
  /-- `ld.cf %rd,%rs` (R425) -/
  | ldcfRR (rd : Reg) (rs : Reg)
  /-- `ld.cf %rd,imm7` (R426) -/
  | ldcfImm (rd : Reg) (imm7 : BitVec 7)
  /-- `ld %rd,sign7` (R184) -/
  | ldImm (rd : Reg) (sign7 : BitVec 7)
  /-- `ld.a %rd,imm7` (R212) -/
  | ldaImm (rd : Reg) (imm7 : BitVec 7)
  /-- `ld.a %sp,imm7` (R216) -/
  | ldaSpImm (imm7 : BitVec 7)
  /-- `ld.a %rd,%sp` (R214) -/
  | ldaRdSp (rd : Reg)
  /-- `ld.a %rd,%pc` (R213) -/
  | ldaRdPc (rd : Reg)
  /-- `ld.a %sp,%rs` (R215) -/
  | ldaSpRs (rs : Reg)
  /-- `ld.a %rd,[%sp]` (R229) -/
  | ldaLoadSp (rd : Reg)
  /-- `ld.a %rd,[%sp]+` (R230) -/
  | ldaLoadSpPostInc (rd : Reg)
  /-- `ld.a %rd,[%sp]-` (R231) -/
  | ldaLoadSpPostDec (rd : Reg)
  /-- `ld.a %rd,-[%sp]` (R232) -/
  | ldaLoadSpPreDec (rd : Reg)
  /-- `ld.a [%sp],%rs` (R233) -/
  | ldaStoreSp (rs : Reg)
  /-- `ld.a [%sp]+,%rs` (R234) -/
  | ldaStoreSpPostInc (rs : Reg)
  /-- `ld.a [%sp]-,%rs` (R235) -/
  | ldaStoreSpPostDec (rs : Reg)
  /-- `ld.a -[%sp],%rs` (R236) -/
  | ldaStoreSpPreDec (rs : Reg)
  /-- `ld.b %rd,[imm7]` (R169) -/
  | ldbLoadAbs (rd : Reg) (imm7 : BitVec 7)
  /-- `ld.b %rd,[%sp+imm7]` (R168) -/
  | ldbLoadSpDisp (rd : Reg) (imm7 : BitVec 7)
  /-- `ld.b [imm7],%rs` (R175) -/
  | ldbStoreAbs (imm7 : BitVec 7) (rs : Reg)
  /-- `ld.b [%sp+imm7],%rs` (R174) -/
  | ldbStoreSpDisp (imm7 : BitVec 7) (rs : Reg)
  /-- `ld.ub %rd,[imm7]` (R182) -/
  | ldubLoadAbs (rd : Reg) (imm7 : BitVec 7)
  /-- `ld.ub %rd,[%sp+imm7]` (R181) -/
  | ldubLoadSpDisp (rd : Reg) (imm7 : BitVec 7)
  /-- `ld %rd,[imm7]` (R190) -/
  | ldLoadAbs (rd : Reg) (imm7 : BitVec 7)
  /-- `ld %rd,[%sp+imm7]` (R189) -/
  | ldLoadSpDisp (rd : Reg) (imm7 : BitVec 7)
  /-- `ld [imm7],%rs` (R196) -/
  | ldStoreAbs (imm7 : BitVec 7) (rs : Reg)
  /-- `ld [%sp+imm7],%rs` (R195) -/
  | ldStoreSpDisp (imm7 : BitVec 7) (rs : Reg)
  /-- `ld.a %rd,[imm7]` (R222) -/
  | ldaLoadAbs (rd : Reg) (imm7 : BitVec 7)
  /-- `ld.a %rd,[%sp+imm7]` (R221) -/
  | ldaLoadSpDisp (rd : Reg) (imm7 : BitVec 7)
  /-- `ld.a [imm7],%rs` (R228) -/
  | ldaStoreAbs (imm7 : BitVec 7) (rs : Reg)
  /-- `ld.a [%sp+imm7],%rs` (R227) -/
  | ldaStoreSpDisp (imm7 : BitVec 7) (rs : Reg)
  /-- `ext imm13` (R150) -/
  | ext (imm13 : BitVec 13)
  /-- `nop` (R401) -/
  | nop
  /-- `halt` (R402) -/
  | halt
  /-- `slp` (R403) -/
  | slp
  /-- `ei` (R404) -/
  | ei
  /-- `di` (R405) -/
  | di
  /-- `jpr sign10` (R345) -/
  | jprImm (sign10 : BitVec 10)
  /-- `jpr.d sign10` (R346) -/
  | jprDelayedImm (sign10 : BitVec 10)
  /-- `jpr %rb` (R347) -/
  | jprReg (rb : Reg)
  /-- `jpr.d %rb` (R348) -/
  | jprDelayedReg (rb : Reg)
  /-- `jpa imm7` (R349) -/
  | jpaImm (imm7 : BitVec 7)
  /-- `jpa.d imm7` (R350) -/
  | jpaDelayedImm (imm7 : BitVec 7)
  /-- `jpa %rb` (R351) -/
  | jpaReg (rb : Reg)
  /-- `jpa.d %rb` (R352) -/
  | jpaDelayedReg (rb : Reg)
  /-- `jrgt sign7` (R353) -/
  | jrgt (sign7 : BitVec 7)
  /-- `jrgt.d sign7` (R354) -/
  | jrgtDelayed (sign7 : BitVec 7)
  /-- `jrge sign7` (R355) -/
  | jrge (sign7 : BitVec 7)
  /-- `jrge.d sign7` (R356) -/
  | jrgeDelayed (sign7 : BitVec 7)
  /-- `jrlt sign7` (R357) -/
  | jrlt (sign7 : BitVec 7)
  /-- `jrlt.d sign7` (R358) -/
  | jrltDelayed (sign7 : BitVec 7)
  /-- `jrle sign7` (R359) -/
  | jrle (sign7 : BitVec 7)
  /-- `jrle.d sign7` (R360) -/
  | jrleDelayed (sign7 : BitVec 7)
  /-- `jrugt sign7` (R361) -/
  | jrugt (sign7 : BitVec 7)
  /-- `jrugt.d sign7` (R362) -/
  | jrugtDelayed (sign7 : BitVec 7)
  /-- `jruge sign7` (R363) -/
  | jruge (sign7 : BitVec 7)
  /-- `jruge.d sign7` (R364) -/
  | jrugeDelayed (sign7 : BitVec 7)
  /-- `jrult sign7` (R365) -/
  | jrult (sign7 : BitVec 7)
  /-- `jrult.d sign7` (R366) -/
  | jrultDelayed (sign7 : BitVec 7)
  /-- `jrule sign7` (R367) -/
  | jrule (sign7 : BitVec 7)
  /-- `jrule.d sign7` (R368) -/
  | jruleDelayed (sign7 : BitVec 7)
  /-- `jreq sign7` (R369) -/
  | jreq (sign7 : BitVec 7)
  /-- `jreq.d sign7` (R370) -/
  | jreqDelayed (sign7 : BitVec 7)
  /-- `jrne sign7` (R371) -/
  | jrne (sign7 : BitVec 7)
  /-- `jrne.d sign7` (R372) -/
  | jrneDelayed (sign7 : BitVec 7)
  /-- `call sign10` (R373) -/
  | callImm (sign10 : BitVec 10)
  /-- `call.d sign10` (R374) -/
  | callDelayedImm (sign10 : BitVec 10)
  /-- `call %rb` (R375) -/
  | callReg (rb : Reg)
  /-- `call.d %rb` (R376) -/
  | callDelayedReg (rb : Reg)
  /-- `calla imm7` (R377) -/
  | callaImm (imm7 : BitVec 7)
  /-- `calla.d imm7` (R378) -/
  | callaDelayedImm (imm7 : BitVec 7)
  /-- `calla %rb` (R379) -/
  | callaReg (rb : Reg)
  /-- `calla.d %rb` (R380) -/
  | callaDelayedReg (rb : Reg)
  /-- `ret` (R381) -/
  | ret
  /-- `ret.d` (R382) -/
  | retDelayed
  /-- `reti` (R383) -/
  | reti
  /-- `reti.d` (R384) -/
  | retiDelayed
  /-- `int imm5` (R385) -/
  | intImm (vec : BitVec 5)
  /-- `intl imm5,imm3` (R386) -/
  | intlImm (vec : BitVec 5) (level : BitVec 3)
  /-- `brk` (R387) -/
  | brk
  /-- `retd` (R388) -/
  | retd
  deriving DecidableEq, Repr

end Sys2Proof
end

