-- ==== Sys2Proof/Machine/State.lean ====
section
/-!
DEFINITION. The state of the machine as plain data (spec 10_state.md, R20 to R50), the reasons a step
can stop, and the state right after reset. Every field says the rule that names it; the last group
holds the parameters and the environment of R4, and the model's own draw counter.
-/

namespace Sys2Proof.Machine

/-- R0 to R7, 24 bits each (R21). -/
structure Regs where
  r0 : Word
  r1 : Word
  r2 : Word
  r3 : Word
  r4 : Word
  r5 : Word
  r6 : Word
  r7 : Word
  deriving DecidableEq, Repr

/-- PSR, 8 bits, all of them named fields (R25): IL in bits 7:5, then IE, C, V, Z, N. -/
structure Psr where
  il : BitVec 3
  ie : Bool
  c  : Bool
  v  : Bool
  z  : Bool
  n  : Bool
  deriving DecidableEq, Repr

/-- The writable and hardware-driven bits of DCR (R37); bits 7:5 are reserved and read 0. -/
structure Dcr where
  dr   : Bool
  ibe1 : Bool
  ibe0 : Bool
  se   : Bool
  dm   : Bool
  deriving DecidableEq, Repr

/-- The bits of SSR (R39); bits 7:3 are reserved and read 0. -/
structure Ssr where
  rxden : Bool
  tdbe  : Bool
  rdbf  : Bool
  deriving DecidableEq, Repr

/-- The pending `ext` immediates, none, one or two of 13 bits, the first one first (R42). -/
inductive ExtPending where
  | none
  | one (e1 : BitVec 13)
  | two (e1 e2 : BitVec 13)
  deriving DecidableEq, Repr

/-- Which kind of delayed branch a slot belongs to: `jr*.d`, `jpr.d` and `jpa.d`, whose slot may hold
`ld.a %rd,%pc`, or a delayed call or return, whose slot may not (R213, R343). -/
inductive DelayKind where
  | jump
  | callOrReturn
  deriving DecidableEq, Repr

/-- A delayed branch whose slot instruction has not yet executed (R43). -/
structure DelayPending where
  target : Word
  kind   : DelayKind
  deriving DecidableEq, Repr

/-- Whether the core executes (R46). -/
inductive RunState where
  | running
  | halted
  | sleeping
  deriving DecidableEq, Repr

/-- The byte memory: (address, byte) pairs with addresses strictly rising and no entry equal to what
an unlisted address reads as (R60). `Memory.wf` is the check. -/
abbrev Memory := List Host.Cell

/-- What `MEM_MAP` places at an address below the core-reserved area (R4, R69). -/
inductive RegionKind where
  | ram
  | rom
  | device
  deriving DecidableEq, Repr

/-- One record of `MEM_MAP`: the addresses from `base`, `size` of them. -/
structure Region where
  base : Nat
  size : Nat
  kind : RegionKind
  deriving DecidableEq, Repr

/-- One range of addresses of `CODE_REGION` (R77). -/
structure AddrRange where
  base : Nat
  size : Nat
  deriving DecidableEq, Repr

/-- A maskable request as the interrupt controller presents it (R48, R445). -/
structure MaskableRequest where
  level  : BitVec 3
  vector : BitVec 5
  deriving DecidableEq, Repr

/-- What the environment presents during one step: `IRQ_ENV` (R48), `WAKE_ENV` (R402, R403) and the
debug serial link behind SSR and SDR (R39, R40). A `none` of the serial fields leaves the bit or byte
as it is. -/
structure Inputs where
  reset        : Bool
  nmi          : Bool
  maskable     : Option MaskableRequest
  debugRequest : Bool
  wakeHalt     : Bool
  wakeSleep    : Bool
  serialTdbe   : Option Bool
  serialRdbf   : Option Bool
  serialData   : Option Byte
  deriving DecidableEq, Repr

/-- The causes an interrupt entry can have (R440). -/
inductive EntryKind where
  | misaligned
  | nmi
  | maskable (level : BitVec 3)
  deriving DecidableEq, Repr

/-- What `IRQ_ENV.accepted` is told (R440, R447). -/
structure Acceptance where
  kind   : EntryKind
  vector : BitVec 5
  deriving DecidableEq, Repr

/-- The whole machine. -/
structure State where
  /-- R0 to R7 (R21). -/
  regs : Regs
  /-- PC, bit 0 always 0 (R22, R23). -/
  pc : Word
  /-- SP, bits 1:0 always 0 (R24). -/
  sp : Word
  /-- PSR (R25 to R32). -/
  psr : Psr
  /-- TTBR, a chip constant, read only (R34). -/
  ttbr : Word
  /-- DBRAM, a chip constant, read only (R36). -/
  dbram : Word
  /-- DCR (R37). -/
  dcr : Dcr
  /-- IBAR0, bit 0 always 0 (R38). -/
  ibar0 : Word
  /-- IBAR1, bit 0 always 0 (R38). -/
  ibar1 : Word
  /-- SSR (R39). -/
  ssr : Ssr
  /-- SDR (R40). -/
  sdr : Byte
  /-- `ext_pending` (R42). -/
  ext : ExtPending
  /-- `delay_pending` (R43). -/
  delay : Option DelayPending
  /-- `irq_hold`, 0 to 2 (R44, R450). -/
  irqHold : Nat
  /-- `dbg_hold` (R44, R450). -/
  dbgHold : Bool
  /-- `dbg_latch` (R44, R461). -/
  dbgLatch : Bool
  /-- `ie_effective` (R45, R503). -/
  ieEffective : Bool
  /-- `ie_lag`, 0 to 3 (R45, R503). -/
  ieLag : Nat
  /-- `run_state` (R46). -/
  runState : RunState
  /-- `nmi_armed` (R47). -/
  nmiArmed : Bool
  /-- `copro_state`: the commands the coprocessor has received since reset, newest first; its own
  state is whatever it makes of them (R50, R420). -/
  copro : List CoproCall
  /-- Memory below the core-reserved area (R60). -/
  mem : Memory
  /-- Parameter `MEM_MAP` (R4); no step changes it. -/
  memMap : List Region
  /-- Parameter `CODE_REGION` (R4, R77); no step changes it. -/
  codeRegion : List AddrRange
  /-- Parameter `DEBUG_FW`: the bytes of the debug firmware, if there is one (R4, D39); no step
  changes it. -/
  debugFw : Option Memory
  /-- `IRQ_ENV` and `WAKE_ENV`: what they present, one entry a step, first entry next; past the end of
  the list nothing is presented (R4, R48). -/
  env : List Inputs
  /-- What `IRQ_ENV.accepted` has been told, newest first (R447). -/
  accepted : List Acceptance
  /-- The MODEL's own field: how many free values have been drawn. -/
  freeCount : Nat
  deriving DecidableEq, Repr

/-- The faults of spec 93 section 4, a closed list. Every one is SAFE: real hardware does something
where the model stops and the model declines to say what. -/
inductive Fault where
  /-- Fetch and decode: the code is assigned to no instruction (R110, R430). Safe. -/
  | unassignedOpcode
  /-- An instruction with one extended form only, preceded by two `ext` (R140 item 4). Safe. -/
  | extCountUnsupported
  /-- A modifying load with `rd` = `rb` or a pre-decrement store with `rs` = `rb` (R162). Safe. -/
  | modifyRegisterOverlap
  /-- `ld.a %rd,%pc` outside the slot of a `jr*.d`, `jpr.d` or `jpa.d` (R213). Safe. -/
  | pcReadOutsideDelaySlot
  /-- A post-modifying `[%sp]` form whose step is not a multiple of 4 (R230, R231, R234, R235). Safe. -/
  | spStepMisaligned
  /-- An access to the core-reserved area other than a documented register at its size (R79). Safe. -/
  | unmappedCoreIO
  /-- A read of an address `MEM_MAP` does not map (R62). Safe. -/
  | unmappedRead
  /-- A write to an address `MEM_MAP` does not map or marks read-only (R63). Safe. -/
  | badWrite
  /-- A store into `CODE_REGION` (R77). Safe. -/
  | writeToCode
  /-- An instruction in a delay slot that may not stand there (R343). Safe. -/
  | illegalDelaySlot
  /-- A misaligned access by a delay slot instruction (R343, R443). Safe. -/
  | misalignedInDelaySlot
  /-- `brk` while DM = 1 (R387). Safe. -/
  | brkInDebugMode
  /-- `retd` while DM = 0 (R388). Safe. -/
  | retdInUserMode
  /-- `int`, `intl` or a misaligned `ld` or `ld.a` while DM = 1 (R463). Safe. -/
  | interruptInDebugMode
  deriving DecidableEq, Repr

/-- The stops that are not faults. -/
inductive Refusal where
  /-- An arm of `exec` that has no meaning yet; no arm uses it. Safe. -/
  | notModelled (mnemonic : String)
  /-- An access to an address `MEM_MAP` marks as a device: what a device of the chip does is outside
  the spec (R3, R68). Raised by the memory operations and the fetch. Safe. -/
  | deviceAccess
  /-- PC entered the core-reserved area and no `DEBUG_FW` is given: the defined end of the run
  `EnteredDebugFirmware` (R430 D, D39). Raised by the fetch. Safe. -/
  | enteredDebugFirmware
  deriving DecidableEq, Repr

/-- The machine right after reset (R50, R490): every value is R50's, except the parameters and the
environment, whose values are named in log entries 1 to 7. PC is the reset vector, which a memory with
nothing listed holds as 0x000000 (`Laws.reset_pc_is_the_reset_vector`). -/
def State.reset : State where
  regs := ⟨0, 0, 0, 0, 0, 0, 0, 0⟩
  pc := 0
  sp := 0
  psr := ⟨0, false, false, false, false, false⟩
  ttbr := Config.resetTtbr
  dbram := Config.resetDbram
  dcr := ⟨false, false, false, false, false⟩
  ibar0 := 0
  ibar1 := 0
  ssr := ⟨true, true, false⟩
  sdr := 0
  ext := .none
  delay := none
  irqHold := 0
  dbgHold := false
  dbgLatch := false
  ieEffective := false
  ieLag := 0
  runState := .running
  nmiArmed := false
  copro := []
  mem := []
  memMap := [⟨0, 0xfffc00, .ram⟩]
  codeRegion := []
  debugFw := none
  env := []
  accepted := []
  freeCount := 0

end Sys2Proof.Machine
end

