-- ==== Sys2Proof/Machine/Ops.lean ====
section
/-!
DEFINITION. The named operations every meaning is built from: registers, status bytes, memory and the
core's own registers, the stack, the vector table, the mask intervals, the ways an instruction ends,
taking an interrupt and returning from one, taking a debug interrupt and returning from one, reset.
-/

namespace Sys2Proof.Machine

/-- A result that a fault or a refusal can replace. -/
abbrev Res (α : Type) := Host.Outcome α Fault Refusal

/-- Goes on with the value of a result, or stops as it stops. -/
def bindRes {α β : Type} (r : Res α) (f : α → Res β) : Res β :=
  match r with
  | .next a => f a
  | .fault e => .fault e
  | .refused e => .refused e

/-! ### Bit fields -/

/-- The low 16 bits of a register, the operand of every 16-bit operation (R64). -/
def low16 (v : Word) : BitVec 16 := v.extractLsb' 0 16

/-- A 16-bit result in a 24-bit register: bits 23:16 are 0 (R21). -/
def zext24 (v : BitVec 16) : Word := v.setWidth 24

/-- An address with bit 0 forced to 0, as every value written to PC (R23). -/
def even (a : Word) : Word := a &&& 0xfffffe

/-- An address with bits 1:0 forced to 0, as every value written to SP (R24) and every 32-bit
access (R66). -/
def align4 (a : Word) : Word := a &&& 0xfffffc

/-- The 32-bit word `{0x00, a}` of a 24-bit store (R65). -/
def zeroTop (a : Word) : BitVec 32 := 0#8 ++ a

/-- The low 24 bits of a 32-bit datum: the top byte is ignored (R65). -/
def low24 (w : BitVec 32) : Word := w.extractLsb' 0 24

/-- The top byte of a 32-bit datum, where the interrupt frame holds PSR (R65, R71). -/
def topByte (w : BitVec 32) : Byte := w.extractLsb' 24 8

/-! ### Registers -/

/-- Read of a general register (R21). -/
def Regs.get (r : Regs) : Reg → Word
  | .r0 => r.r0 | .r1 => r.r1 | .r2 => r.r2 | .r3 => r.r3
  | .r4 => r.r4 | .r5 => r.r5 | .r6 => r.r6 | .r7 => r.r7

/-- Write of a general register: all 24 bits (R21). -/
def Regs.set (r : Regs) (i : Reg) (v : Word) : Regs :=
  match i with
  | .r0 => { r with r0 := v } | .r1 => { r with r1 := v }
  | .r2 => { r with r2 := v } | .r3 => { r with r3 := v }
  | .r4 => { r with r4 := v } | .r5 => { r with r5 := v }
  | .r6 => { r with r6 := v } | .r7 => { r with r7 := v }

/-- `r[i]` (R6). -/
def State.reg (s : State) (i : Reg) : Word := s.regs.get i

/-- `r[i] <- v` (R6). -/
def State.setReg (s : State) (i : Reg) (v : Word) : State := { s with regs := s.regs.set i v }

/-- `sp <- v`: bits 1:0 are dropped (R24). -/
def State.setSp (s : State) (v : Word) : State := { s with sp := align4 v }

/-! ### Status bytes -/

/-- PSR as the byte an interrupt saves (R25). -/
def Psr.toByte (p : Psr) : Byte :=
  p.il ++ BitVec.ofBool p.ie ++ BitVec.ofBool p.c ++ BitVec.ofBool p.v ++ BitVec.ofBool p.z ++
    BitVec.ofBool p.n

/-- PSR from a saved byte, all eight bits (R25, R383). -/
def Psr.ofByte (b : Byte) : Psr :=
  ⟨b.extractLsb' 5 3, b.getLsbD 4, b.getLsbD 3, b.getLsbD 2, b.getLsbD 1, b.getLsbD 0⟩

/-- DCR as an 8-bit read sees it: the reserved bits 7:5 are 0 (R37). -/
def Dcr.toByte (d : Dcr) : Byte :=
  0#3 ++ BitVec.ofBool d.dr ++ BitVec.ofBool d.ibe1 ++ BitVec.ofBool d.ibe0 ++ BitVec.ofBool d.se ++
    BitVec.ofBool d.dm

/-- An 8-bit write of DCR: 1 in bit 4 clears DR and 0 leaves it, bits 3:1 are written, bit 0 and bits
7:5 are ignored (R37, R79). -/
def Dcr.written (d : Dcr) (b : Byte) : Dcr :=
  { dr := if b.getLsbD 4 then false else d.dr
    ibe1 := b.getLsbD 3
    ibe0 := b.getLsbD 2
    se := b.getLsbD 1
    dm := d.dm }

/-- SSR as an 8-bit read sees it: the reserved bits 7:3 are 0 (R39). -/
def Ssr.toByte (r : Ssr) : Byte :=
  0#5 ++ BitVec.ofBool r.rxden ++ BitVec.ofBool r.tdbe ++ BitVec.ofBool r.rdbf

/-! ### The byte memory -/

/-- What an address that memory does not list reads as. DESIGN CHOICE (log entry 5): the spec gives
RAM no contents after power-on (D35, W5). -/
def unlistedByte : Byte := 0x00

/-- The byte at an address. -/
def Memory.read : Memory → Nat → Byte
  | [], _ => unlistedByte
  | (a, b) :: m, x => if a = x then b else Memory.read m x

/-- Puts a byte in front of the entries of higher addresses, or lists nothing for a byte that an
unlisted address reads as anyway. -/
def Memory.consByte (x : Nat) (v : Byte) (m : Memory) : Memory :=
  if v = unlistedByte then m else (x, v) :: m

/-- Writes one byte, keeping the addresses rising and listing no byte that need not be. -/
def Memory.write : Memory → Nat → Byte → Memory
  | [], x, v => Memory.consByte x v []
  | (a, b) :: m, x, v =>
    if x < a then Memory.consByte x v ((a, b) :: m)
    else if a = x then Memory.consByte x v m
    else (a, b) :: Memory.write m x v

/-- The canonical form from a lower bound on: addresses strictly rising, inside the 24-bit address
space, and no entry equal to what an unlisted address reads as. -/
def Memory.wfFrom : Nat → Memory → Bool
  | _, [] => true
  | lo, (a, b) :: m => decide (lo ≤ a) && decide (a < 2 ^ 24) && (b != unlistedByte) && wfFrom (a + 1) m

/-- The canonical form of a memory. -/
def Memory.wf (m : Memory) : Bool := Memory.wfFrom 0 m

/-! ### Access widths (R62, R63) -/

/-- The three access widths: 1, 2 and 4 bytes. -/
inductive Width where
  | byte
  | half
  | word
  deriving DecidableEq, Repr

/-- The number of bytes of an access. -/
def Width.bytes : Width → Nat
  | .byte => 1
  | .half => 2
  | .word => 4

/-- The datum at an address, little endian, in the low bits of 32 (R61, R62). -/
def loadBytes (m : Memory) (a : Nat) : Width → BitVec 32
  | .byte => 0#24 ++ m.read a
  | .half => 0#16 ++ m.read (a + 1) ++ m.read a
  | .word => m.read (a + 3) ++ m.read (a + 2) ++ m.read (a + 1) ++ m.read a

/-- Byte `i` of a 32-bit value. -/
def byteOf (v : BitVec 32) (i : Nat) : Byte := v.extractLsb' (8 * i) 8

/-- Writes the low bytes of a value at an address, little endian (R61, R63). -/
def storeBytes (m : Memory) (a : Nat) (v : BitVec 32) : Width → Memory
  | .byte => m.write a (byteOf v 0)
  | .half => (m.write a (byteOf v 0)).write (a + 1) (byteOf v 1)
  | .word =>
    (((m.write a (byteOf v 0)).write (a + 1) (byteOf v 1)).write (a + 2) (byteOf v 2)).write (a + 3)
      (byteOf v 3)

/-! ### The address map -/

/-- Whether a region holds an address. -/
def Region.covers (r : Region) (a : Nat) : Bool := decide (r.base ≤ a) && decide (a < r.base + r.size)

/-- Whether a range holds an address. -/
def AddrRange.covers (r : AddrRange) (a : Nat) : Bool := decide (r.base ≤ a) && decide (a < r.base + r.size)

/-- What `MEM_MAP` places at an address: the first region that holds it, or nothing (R69). -/
def kindAt : List Region → Nat → Option RegionKind
  | [], _ => none
  | r :: rs, a => if r.covers a then some r.kind else kindAt rs a

/-- Whether an address lies in `CODE_REGION` (R77). -/
def inCodeRegion (rs : List AddrRange) (a : Nat) : Bool := rs.any (·.covers a)

/-- Whether one byte may be read (R62). -/
def readable (s : State) (a : Nat) : Res Unit :=
  match kindAt s.memMap a with
  | none => .fault .unmappedRead
  | some .device => .refused .deviceAccess
  | some .ram | some .rom => .next ()

/-- Whether one byte may be written: mapped, not read-only, not in `CODE_REGION` (R63, R77). -/
def writable (s : State) (a : Nat) : Res Unit :=
  match kindAt s.memMap a with
  | none | some .rom => .fault .badWrite
  | some .device => .refused .deviceAccess
  | some .ram => if inCodeRegion s.codeRegion a then .fault .writeToCode else .next ()

/-- Checks `n` bytes from an address upwards, stopping at the first that may not be accessed. -/
def checkBytes (ok : Nat → Res Unit) (a : Nat) : Nat → Res Unit
  | 0 => .next ()
  | n + 1 => bindRes (ok a) fun _ => checkBytes ok (a + 1) n

/-! ### The core's own registers (R34 to R41, R79) -/

/-- A read in the core-reserved area: the eight registers at their own size, a fault for anything
else (R79). -/
def coreRead (s : State) (w : Width) (a : Word) : Res (BitVec 32) :=
  match w with
  | .word =>
    if a = 0xffff80 then .next (zeroTop s.ttbr)
    else if a = 0xffff90 then .next (zeroTop s.dbram)
    else if a = 0xffffb0 then .next (zeroTop s.ibar0)
    else if a = 0xffffb4 then .next (zeroTop s.ibar1)
    else .fault .unmappedCoreIO
  | .byte =>
    if a = 0xffff84 then .next (Config.idirValue.setWidth 32)
    else if a = 0xffffa0 then .next (s.dcr.toByte.setWidth 32)
    else if a = 0xffffc0 then .next (s.ssr.toByte.setWidth 32)
    else if a = 0xffffc2 then .next (s.sdr.setWidth 32)
    else .fault .unmappedCoreIO
  | .half => .fault .unmappedCoreIO

/-- A write in the core-reserved area (R79): TTBR, IDIR and DBRAM ignore it, IBAR0 and IBAR1 take bits
23:1, DCR and SSR their writable bits, SDR the byte; anything else is a fault. -/
def coreWrite (s : State) (w : Width) (a : Word) (v : BitVec 32) : Res State :=
  match w with
  | .word =>
    if a = 0xffff80 then .next s
    else if a = 0xffff90 then .next s
    else if a = 0xffffb0 then .next { s with ibar0 := even (low24 v) }
    else if a = 0xffffb4 then .next { s with ibar1 := even (low24 v) }
    else .fault .unmappedCoreIO
  | .byte =>
    if a = 0xffff84 then .next s
    else if a = 0xffffa0 then .next { s with dcr := s.dcr.written (byteOf v 0) }
    else if a = 0xffffc0 then .next { s with ssr := { s.ssr with rxden := v.getLsbD 2 } }
    else if a = 0xffffc2 then .next { s with sdr := byteOf v 0 }
    else .fault .unmappedCoreIO
  | .half => .fault .unmappedCoreIO

/-- `MemRead` (R62, R79). The caller gives an address that is a multiple of the width. -/
def memRead (s : State) (w : Width) (a : Word) : Res (BitVec 32) :=
  if Config.coreAreaBase ≤ a then coreRead s w a
  else bindRes (checkBytes (readable s) a.toNat w.bytes) fun _ => .next (loadBytes s.mem a.toNat w)

/-- `MemWrite` (R63, R77, R79). The caller gives an address that is a multiple of the width. -/
def memWrite (s : State) (w : Width) (a : Word) (v : BitVec 32) : Res State :=
  if Config.coreAreaBase ≤ a then coreWrite s w a v
  else bindRes (checkBytes (writable s) a.toNat w.bytes) fun _ =>
    .next { s with mem := storeBytes s.mem a.toNat v w }

/-! ### The stack and the vector table -/

/-- `Push` (R341): SP goes down by 4 and the word is written there. -/
def push (s : State) (v : BitVec 32) : Res State :=
  let s1 := s.setSp (s.sp - 4)
  memWrite s1 .word s1.sp v

/-- `Pop` (R341): the word at SP and the state with SP up by 4. -/
def pop (s : State) : Res (BitVec 32 × State) :=
  bindRes (memRead s .word s.sp) fun v => .next (v, s.setSp (s.sp + 4))

/-- The address of a vector table entry (R70). -/
def vectorAddress (s : State) (v : BitVec 5) : Word := s.ttbr + v.setWidth 24 * 4

/-- `VectorRead` (R436): bits 31:24 of the entry are ignored and bit 0 is taken as 0. -/
def vectorRead (s : State) (v : BitVec 5) : Res Word :=
  bindRes (memRead s .word (vectorAddress s v)) fun w => .next (even (low24 w))

/-- The saved word `{psr, return address}` (R71, R72). -/
def frameWord (p : Psr) (ret : Word) : BitVec 32 := p.toByte ++ ret

/-! ### How an instruction ends -/

/-- The ordinary end: the pending `ext` is used up and PC goes to the next code (R23, R140). -/
def advance (s : State) : State := { s with pc := s.pc + 2, ext := .none }

/-- The end of a plain branch (R6, R340): bit 0 of the target is forced to 0. -/
def jumpTo (s : State) (target : Word) : State := { s with pc := even target, ext := .none }

/-- `irq_hold <- max(irq_hold, 1)` (R450). -/
def holdIrq (s : State) : State := { s with irqHold := max s.irqHold 1 }

/-- `DelayedBranch` (R342): the slot instruction is next and the target is remembered. -/
def delayedBranch (s : State) (kind : DelayKind) (taken : Bool) (target : Word) : State :=
  { s with
    delay := some ⟨if taken then target else s.pc + 4, kind⟩
    irqHold := max s.irqHold 1
    dbgHold := true
    pc := s.pc + 2
    ext := .none }

/-! ### Taking an interrupt and returning from one -/

/-- IL after an entry: a maskable interrupt sets it to its level, the others leave it (R440 step 3). -/
def EntryKind.levelAfter : EntryKind → BitVec 3 → BitVec 3
  | .maskable level, _ => level
  | .misaligned, il | .nmi, il => il

/-- Clears IE at once, also for acceptance (R440, R503 item 3). -/
def clearIe (s : State) : State :=
  { s with psr := { s.psr with ie := false }, ieEffective := false, ieLag := 0 }

/-- `InterruptEntry` (R440): PSR and the return address go on the stack, IE is cleared, IL takes the
level of a maskable interrupt, and PC comes from the vector table. -/
def interruptEntry (s : State) (kind : EntryKind) (v : BitVec 5) (ret : Word) : Res State :=
  bindRes (push s (frameWord s.psr ret)) fun s1 =>
  let s2 := clearIe s1
  let s3 := { s2 with psr := { s2.psr with il := kind.levelAfter s2.psr.il } }
  bindRes (vectorRead s3 v) fun target =>
  .next { s3 with
    pc := target
    ext := .none
    delay := none
    accepted := ⟨kind, v⟩ :: s3.accepted }

/-- `raise AddressMisaligned(pc)` (R443): the entry through vector 1 with the instruction's own address,
as part of the same step; a fault in a delay slot (D46) and in debug mode (D34). -/
def raiseMisaligned (s : State) : Res State :=
  if s.delay.isSome then .fault .misalignedInDelaySlot
  else if s.dcr.dm then .fault .interruptInDebugMode
  else interruptEntry s .misaligned 1 s.pc

/-- The entry of `int` and `intl` (R385, R386): as R440, from the instruction's own rule; `level` is the
new IL of `intl`. -/
def softwareInterrupt (s : State) (v : BitVec 5) (level : Option (BitVec 3)) : Res State :=
  if s.dcr.dm then .fault .interruptInDebugMode
  else
    bindRes (push s (frameWord s.psr (s.pc + 2))) fun s1 =>
    let s2 := clearIe s1
    let s3 := { s2 with psr := { s2.psr with il := level.getD s2.psr.il } }
    bindRes (vectorRead s3 v) fun target => .next (holdIrq (jumpTo s3 target))

/-- The restore of `reti` and `reti.d` (R383, R384): one word is popped, PSR is its top byte, and
acceptance sees IE at once. -/
def popFrame (s : State) : Res (Word × State) :=
  bindRes (pop s) fun r =>
  let p := Psr.ofByte (topByte r.1)
  .next (low24 r.1, { r.2 with psr := p, ieEffective := p.ie, ieLag := 0 })

/-- `DebugEntry` (R460): PSR and the return address go to DBRAM, R0 to DBRAM + 4, DM is set and PC goes
to 0xfffc00. SP and PSR are not changed. -/
def debugEntry (s : State) (ret : Word) : Res State :=
  bindRes (memWrite s .word s.dbram (frameWord s.psr ret)) fun s1 =>
  bindRes (memWrite s1 .word (s1.dbram + 4) (zeroTop (s1.reg .r0))) fun s2 =>
  .next { s2 with
    dcr := { s2.dcr with dm := true }
    dbgLatch := false
    pc := Config.debugEntryAddress
    ext := .none
    delay := none }

/-- The restore of `retd` (R388, R462): R0 from DBRAM + 4, then PSR and PC from DBRAM; user mode; the
next boundary refuses every request (interval 3 of R450). -/
def debugReturn (s : State) : Res State :=
  bindRes (memRead s .word (s.dbram + 4)) fun w0 =>
  bindRes (memRead s .word s.dbram) fun w =>
  let p := Psr.ofByte (topByte w)
  let s1 := s.setReg .r0 (low24 w0)
  .next { holdIrq (jumpTo s1 (low24 w)) with
    psr := p
    ieEffective := p.ie
    ieLag := 0
    dcr := { s.dcr with dm := false }
    dbgHold := true }

/-! ### Reset -/

/-- Every register and hidden value at its reset value (R50, R490), PC apart. -/
def clearedByReset (s : State) : State :=
  { s with
    regs := ⟨0, 0, 0, 0, 0, 0, 0, 0⟩
    sp := 0
    psr := ⟨0, false, false, false, false, false⟩
    dcr := ⟨false, false, false, false, false⟩
    ibar0 := 0
    ibar1 := 0
    ssr := ⟨true, true, false⟩
    sdr := 0
    ext := .none
    delay := none
    irqHold := 0
    dbgHold := false
    dbgLatch := false
    ieEffective := false
    ieLag := 0
    runState := .running
    nmiArmed := false
    copro := [] }

/-- `ResetSequence` (R490): the clear, then PC from entry 0 of the vector table. Memory, TTBR and DBRAM
are not changed. -/
def resetSequence (s : State) : Res State :=
  let s1 := clearedByReset s
  bindRes (vectorRead s1 0) fun target => .next { s1 with pc := target }

end Sys2Proof.Machine
end

