-- ==== Sys2Proof/Machine/Boundary.lean ====
section
/-!
DEFINITION. The instruction boundary: what the environment presents, power-down and wake, which request
is accepted, and accepting it (spec 60_exceptions.md, R430 parts A to C, R435, R440, R450, R460, R461;
47_system.md R402, R403).
-/

namespace Sys2Proof.Machine

/-- Nothing presented. -/
def idleInputs : Inputs where
  reset := false
  nmi := false
  maskable := none
  debugRequest := false
  wakeHalt := false
  wakeSleep := false
  serialTdbe := none
  serialRdbf := none
  serialData := none

/-- What the environment presents to this step (R48). -/
def inputsNow (s : State) : Inputs := s.env.headD idleInputs

/-- The state once this step's inputs have been consumed. -/
def consumeInputs (s : State) : State := { s with env := s.env.tail }

/-- Whether the core goes on: it runs already, or the environment wakes it from its mode (R430 B). -/
def awake (r : RunState) (inp : Inputs) : Bool :=
  match r with
  | .running => true
  | .halted => inp.wakeHalt
  | .sleeping => inp.wakeSleep

/-- The inputs the core's own registers take at a boundary: a forced break sets DCR.DR (R461), and the
serial link drives SSR.TDBE, SSR.RDBF and SDR (D31). -/
def applyInputs (inp : Inputs) (s : State) : State :=
  { s with
    runState := .running
    dcr := { s.dcr with dr := s.dcr.dr || inp.debugRequest }
    ssr := { s.ssr with tdbe := inp.serialTdbe.getD s.ssr.tdbe, rdbf := inp.serialRdbf.getD s.ssr.rdbf }
    sdr := inp.serialData.getD s.sdr }

/-- A request the core accepts at a boundary (R435). -/
inductive Request where
  | debug
  | nmi
  | maskable (level : BitVec 3) (vector : BitVec 5)
  deriving DecidableEq, Repr

/-- The boundary passes: the holds and the `ei`/`di` lag count down (R435, R450, R503). A lag of 1 ends at the
first boundary (log entry 23). -/
def countBoundary (s : State) : State :=
  { s with
    irqHold := s.irqHold - 1
    dbgHold := false
    ieLag := s.ieLag - 1
    ieEffective := if s.ieLag = 1 then s.psr.ie else s.ieEffective }

/-- Whether the address about to be fetched matches an enabled instruction break in user mode (R461). -/
def instructionBreak (s : State) : Bool :=
  !s.dcr.dm && ((s.dcr.ibe0 && s.pc == s.ibar0) || (s.dcr.ibe1 && s.pc == s.ibar1))

/-- An instruction break match is remembered (R435, R461). -/
def latchBreak (s : State) : State :=
  { s with dbgLatch := s.dbgLatch || instructionBreak s }

/-- Whether a maskable request may be accepted: IE as acceptance sees it and a level above IL (R435,
R445). -/
def maskableAccepted (s : State) (m : MaskableRequest) : Bool :=
  s.ieEffective && decide (s.psr.il < m.level)

/-- The request accepted at this boundary, in the priority order of R432: debug, NMI, maskable. `s` is
the state before the boundary counts down; `latch` is `dbg_latch` after the comparison. -/
def acceptedRequest (inp : Inputs) (s : State) (latch : Bool) : Option Request :=
  let dbgOk := !s.dbgHold && !s.dcr.dm
  let irqOk := decide (s.irqHold = 0) && !s.dcr.dm
  if dbgOk && (latch || s.dcr.dr) then some .debug
  else if irqOk && inp.nmi && s.nmiArmed then some .nmi
  else
    match inp.maskable with
    | some m => if irqOk && maskableAccepted s m then some (.maskable m.level m.vector) else none
    | none => none

/-- `SelectRequest` (R435). -/
def selectRequest (inp : Inputs) (s : State) : Option Request × State :=
  let s1 := latchBreak (countBoundary s)
  (acceptedRequest inp s s1.dbgLatch, s1)

/-- `Accept` (R430 C): the entry, a step of its own; the saved address is that of the next instruction
(R441). -/
def acceptRequest (r : Request) (s : State) : Res State :=
  match r with
  | .debug => debugEntry s s.pc
  | .nmi => interruptEntry s .nmi 2 s.pc
  | .maskable level vector => interruptEntry s (.maskable level) vector s.pc

end Sys2Proof.Machine
end

