-- ==== Sys2Proof/Machine/Operands.lean ====
section
/-!
DEFINITION. Every operand form of the spec, with no, one or two pending `ext` immediates (spec
40_addressing_ext.md R141 to R149; R161, R210, R250, R273, R340, R420). `n` of the spec is which
constructor of `ExtPending` the state holds; `e1` is the first `ext`, `e2` the second.
-/

namespace Sys2Proof.Machine

/-- Executing `ext imm13` (R140 item 1, R150): the immediate is appended and the last two are kept. -/
def ExtPending.append : ExtPending → BitVec 13 → ExtPending
  | .none, e => .one e
  | .one e1, e => .two e1 e
  | .two _ e2, e => .two e2 e

/-- The 24-bit immediate two `ext` build by themselves, `{e1[10:0], e2}` (R144, R145, R146). -/
def pair24 (e1 e2 : BitVec 13) : Word := e1.extractLsb' 0 11 ++ e2

/-- `Disp(n)`: the displacement `ext` adds to `[%rb]` and `[%sp]` (R145, R161). -/
def ExtPending.disp : ExtPending → Word
  | .none => 0
  | .one e1 => e1.setWidth 24
  | .two e1 e2 => pair24 e1 e2

/-- `Step(s,n)`: the step of the post- and pre-modify modes; `size` without `ext` (R146, R161). -/
def ExtPending.stepOr (size : Word) : ExtPending → Word
  | .none => size
  | .one e1 => e1.setWidth 24
  | .two e1 e2 => pair24 e1 e2

/-- `Imm24(n)`, also `Abs7(n)` and `CoImm(n)`: a 7-bit immediate extended to 20 or 24 bits and
zero-extended (R142, R147, R149, R420). -/
def ExtPending.imm24 (imm7 : BitVec 7) : ExtPending → Word
  | .none => imm7.setWidth 24
  | .one e1 => (e1 ++ imm7).setWidth 24
  | .two e1 e2 => e1.extractLsb' 0 4 ++ e2 ++ imm7

/-- `Imm16(n)`: the zero-extended immediate of `add`, `adc`, `sub`, `sbc` `%rd,imm7`; two `ext` are not
allowed (R141, R273, D3). -/
def ExtPending.imm16 (imm7 : BitVec 7) : ExtPending → Res (BitVec 16)
  | .none => .next (imm7.setWidth 16)
  | .one e1 => .next (e1.extractLsb' 0 9 ++ imm7)
  | .two _ _ => .fault .extCountUnsupported

/-- `Sign16(n)`: the sign-extended immediate of the `%rd,sign7` forms; with one `ext` the sign is bit 8
of the `ext`; two are not allowed (R143, R250, R273, D3). -/
def ExtPending.sign16 (sign7 : BitVec 7) : ExtPending → Res (BitVec 16)
  | .none => .next (sign7.signExtend 16)
  | .one e1 => .next (e1.extractLsb' 0 9 ++ sign7)
  | .two _ _ => .fault .extCountUnsupported

/-- First operand of a 16-bit `%rd,%rs` form: `rd`, or `rs` when `ext` precedes (R144). -/
def firstOperand16 (s : State) (rd rs : Reg) : BitVec 16 :=
  match s.ext with
  | .none => low16 (s.reg rd)
  | .one _ | .two _ _ => low16 (s.reg rs)

/-- Second operand of a 16-bit `%rd,%rs` form: `rs`, or the `ext` immediate, zero-extended (R144). -/
def secondOperand16 (s : State) (rs : Reg) : BitVec 16 :=
  match s.ext with
  | .none => low16 (s.reg rs)
  | .one e1 => e1.setWidth 16
  | .two e1 e2 => e1.extractLsb' 0 3 ++ e2

/-- First operand of a 24-bit register form whose own first source is `x` (`rd` or SP): `x`, or `rs` when
`ext` precedes (R144, R273). -/
def firstOperand24 (s : State) (x : Word) (rs : Reg) : Word :=
  match s.ext with
  | .none => x
  | .one _ | .two _ _ => s.reg rs

/-- Second operand of a 24-bit register form: `rs`, or the `ext` immediate, zero-extended (R144). -/
def secondOperand24 (s : State) (rs : Reg) : Word :=
  match s.ext with
  | .none => s.reg rs
  | .one e1 => e1.setWidth 24
  | .two e1 e2 => pair24 e1 e2

/-- `Rel7(n)`: the displacement of `jr* sign7` (R148, R340). -/
def ExtPending.rel7 (sign7 : BitVec 7) : ExtPending → Word
  | .none => (sign7 ++ 0#1).signExtend 24
  | .one e1 => (e1 ++ sign7 ++ 0#1).signExtend 24
  | .two e1 e2 => e1.extractLsb' 0 3 ++ e2 ++ sign7 ++ 0#1

/-- `Rel10(n)`: the displacement of `jpr sign10` and `call sign10`; two `ext` are not allowed (R148,
R340, D3). -/
def ExtPending.rel10 (sign10 : BitVec 10) : ExtPending → Res Word
  | .none => .next ((sign10 ++ 0#1).signExtend 24)
  | .one e1 => .next (e1 ++ sign10 ++ 0#1)
  | .two _ _ => .fault .extCountUnsupported

/-- `RelReg`: a register displacement is a byte count and its bit 0 is taken as 0 (R340). -/
def relReg (v : Word) : Word := even v

/-- `RelTarget(d)`: the address after the branch plus the displacement, modulo 2^24 (R340). -/
def relTarget (s : State) (d : Word) : Word := s.pc + 2 + d

/-- `AbsTarget(a)`: bit 0 is dropped (R340). -/
def absTarget (a : Word) : Word := even a

end Sys2Proof.Machine
end

