-- ==== Sys2Proof/Machine/Flags.lean ====
section
/-!
DEFINITION. The results and flags of the 16-bit and 24-bit operations, and the branch conditions
(R28 to R32, R250, R270, R271, R298, R320, R321, R344). Arithmetic is done on natural numbers and
integers and narrowed at the end, so carry and borrow are comparisons with the exact value.
-/

namespace Sys2Proof.Machine

/-- A 16-bit result with the carry or borrow and the overflow it makes. -/
structure Arith16 where
  value    : BitVec 16
  carry    : Bool
  overflow : Bool
  deriving DecidableEq, Repr

/-- `Add16` (R270). -/
def add16 (a b : BitVec 16) (cin : Bool) : Arith16 :=
  let sum := a.toNat + b.toNat + cin.toNat
  let res := BitVec.ofNat 16 sum
  { value := res
    carry := decide (0xffff < sum)
    overflow := (a.msb == b.msb) && (res.msb != a.msb) }

/-- `Sub16` (R271): the carry is the borrow. -/
def sub16 (a b : BitVec 16) (bin : Bool) : Arith16 :=
  let diff : Int := (a.toNat : Int) - b.toNat - bin.toNat
  let res := BitVec.ofInt 16 diff
  { value := res
    carry := decide (diff < 0)
    overflow := (a.msb != b.msb) && (res.msb != a.msb) }

/-- V, Z and N of a 16-bit result (R270). -/
def Psr.withVZN (p : Psr) (res : BitVec 16) (overflow : Bool) : Psr :=
  { p with v := overflow, z := res == 0, n := res.msb }

/-- Z and N of a 16-bit result (R30, R31). -/
def Psr.withZN (p : Psr) (res : BitVec 16) : Psr := { p with z := res == 0, n := res.msb }

/-- C (R28). -/
def Psr.withC (p : Psr) (c : Bool) : Psr := { p with c := c }

/-- C and Z of `cmp.a`: the borrow and the zero of the 24-bit difference (R298). -/
def Psr.withCompare24 (p : Psr) (a b : Word) : Psr :=
  { p with c := decide (a.toNat < b.toNat), z := a - b == 0 }

/-- Z of `cmp.a/c` and `cmp.a/nc` (R312, R313). -/
def Psr.withZero24 (p : Psr) (a b : Word) : Psr := { p with z := a - b == 0 }

/-- The three shifts of R321. -/
inductive ShiftKind where
  | sr
  | sa
  | sl
  deriving DecidableEq, Repr

/-- `ShAmt(x)` (R320): 0 to 3 as they are, 4 to 7 shift 4, 8 and more shift 8. -/
def shiftAmount (x : Nat) : Nat := if x ≤ 3 then x else if x ≤ 7 then 4 else 8

/-- The 16-bit result of a shift by `k` (R321). -/
def ShiftKind.result (kind : ShiftKind) (v : BitVec 16) (k : Nat) : BitVec 16 :=
  match kind with
  | .sr => v >>> k
  | .sa => v.sshiftRight k
  | .sl => v <<< k

/-- The last bit shifted out, for `k` of 1 or more (R321). -/
def ShiftKind.lastOut (kind : ShiftKind) (v : BitVec 16) (k : Nat) : Bool :=
  match kind with
  | .sr | .sa => v.getLsbD (k - 1)
  | .sl => v.getLsbD (16 - k)

/-- C, V, Z, N from the coprocessor, C in bit 3 (R420). -/
def Psr.withCopro (p : Psr) (f : BitVec 4) : Psr :=
  { p with c := f.getLsbD 3, v := f.getLsbD 2, z := f.getLsbD 1, n := f.getLsbD 0 }

/-- The ten conditions of R344. -/
inductive Cond where
  | gt | ge | lt | le | ugt | uge | ult | ule | eq | ne
  deriving DecidableEq, Repr

/-- Whether a condition holds of the flags (R344). -/
def Cond.holds (c : Cond) (p : Psr) : Bool :=
  match c with
  | .gt => !p.z && !(p.n ^^ p.v)
  | .ge => !(p.n ^^ p.v)
  | .lt => p.n ^^ p.v
  | .le => p.z || (p.n ^^ p.v)
  | .ugt => !p.z && !p.c
  | .uge => !p.c
  | .ult => p.c
  | .ule => p.z || p.c
  | .eq => p.z
  | .ne => !p.z

end Sys2Proof.Machine
end

