-- ==== Sys2Proof/Machine/Transfer.lean ====
section
/-!
DEFINITION. The data transfers of R160, R161, R162 and R210, said once for every size and addressing mode; the
meanings of TransferByteWord.lean and TransferA.lean are one line over these.
-/

namespace Sys2Proof.Machine

/-- The four kinds of memory datum: signed byte, unsigned byte, 16 bits and 24/32 bits (R64, R160). -/
inductive Transfer where
  | signedByte
  | unsignedByte
  | half
  | address
  deriving DecidableEq, Repr

/-- The access width in memory (R64). -/
def Transfer.width : Transfer → Width
  | .signedByte | .unsignedByte => .byte
  | .half => .half
  | .address => .word

/-- The step of a modifying mode without `ext`: the transfer size (R134). -/
def Transfer.size : Transfer → Word
  | .signedByte | .unsignedByte => 1
  | .half => 2
  | .address => 4

/-- The address an access uses: its low bits are cleared (R66, R161, R210). -/
def Transfer.aligned (t : Transfer) (ea : Word) : Word :=
  match t with
  | .signedByte | .unsignedByte => ea
  | .half => even ea
  | .address => align4 ea

/-- Whether an effective address raises the address-misaligned interrupt (R66, R161, R210). -/
def Transfer.misaligned (t : Transfer) (ea : Word) : Bool := t.aligned ea != ea

/-- What a load writes into the register (R64, R160): a signed byte is extended to 16 bits only. -/
def Transfer.toRegister (t : Transfer) (v : BitVec 32) : Word :=
  match t with
  | .signedByte => zext24 ((v.extractLsb' 0 8).signExtend 16)
  | .unsignedByte => (v.extractLsb' 0 8).setWidth 24
  | .half => zext24 (v.extractLsb' 0 16)
  | .address => low24 v

/-- The datum of a load at an effective address, its low bits cleared (R161, R210). -/
def loadAt (t : Transfer) (s : State) (ea : Word) : Res Word :=
  bindRes (memRead s t.width (t.aligned ea)) fun v => .next (t.toRegister v)

/-- The store of a register value at an effective address, its low bits cleared; the top byte of a
32-bit store is 0 (R65, R161, R210). -/
def storeAt (t : Transfer) (s : State) (ea : Word) (v : Word) : Res State :=
  memWrite s t.width (t.aligned ea) (zeroTop v)

/-- The end of a memory form: the next code, or the address-misaligned interrupt, which is raised after
the instruction has completed (R66, R443). -/
def endTransfer (t : Transfer) (ea : Word) (s : State) : Res State :=
  if t.misaligned ea then raiseMisaligned s else .next (advance s)

/-- A load from `ea` into `rd`; `upd` is the update of the base register, if any. -/
def loadFrom (t : Transfer) (rd : Reg) (ea : Word) (upd : State → State) (s : State) : Res State :=
  bindRes (loadAt t s ea) fun v => endTransfer t ea (upd (s.setReg rd v))

/-- A store of `rs` to `ea`; `upd` is the update of the base register, if any. The value is the one `rs`
held before the instruction (R162). -/
def storeTo (t : Transfer) (rs : Reg) (ea : Word) (upd : State → State) (s : State) : Res State :=
  bindRes (storeAt t s ea (s.reg rs)) fun s1 => endTransfer t ea (upd s1)

/-- `[%rb]`: the address is the base plus the displacement of `ext` (R133, R145). -/
def indirectAddress (s : State) (rb : Reg) : Word := s.reg rb + s.ext.disp

/-- `[%sp]` with its displacement (R133, R145). -/
def spIndirectAddress (s : State) : Word := s.sp + s.ext.disp

/-- `[%sp+imm7]` (R135, R147). -/
def spDisplacedAddress (s : State) (imm7 : BitVec 7) : Word := s.sp + s.ext.imm24 imm7

/-- `[imm7]` (R147). -/
def absoluteAddress (s : State) (imm7 : BitVec 7) : Word := s.ext.imm24 imm7

/-- The step of a modifying mode (R134, R146). -/
def modifyStep (t : Transfer) (s : State) : Word := s.ext.stepOr t.size

/-- `ld %rd,[%rb]` of any kind. -/
def loadInd (t : Transfer) (rd rb : Reg) (s : State) : Res State :=
  loadFrom t rd (indirectAddress s rb) id s

/-- `ld %rd,[%rb]+` of any kind: the old base is the address (R134); the registers may not coincide
(R162). -/
def loadPostInc (t : Transfer) (rd rb : Reg) (s : State) : Res State :=
  if rd = rb then .fault .modifyRegisterOverlap
  else loadFrom t rd (s.reg rb) (fun u => u.setReg rb (s.reg rb + modifyStep t s)) s

/-- `ld %rd,[%rb]-` of any kind: the old base is the address (R134). -/
def loadPostDec (t : Transfer) (rd rb : Reg) (s : State) : Res State :=
  if rd = rb then .fault .modifyRegisterOverlap
  else loadFrom t rd (s.reg rb) (fun u => u.setReg rb (s.reg rb - modifyStep t s)) s

/-- `ld %rd,-[%rb]` of any kind: the decremented base is the address (R134). -/
def loadPreDec (t : Transfer) (rd rb : Reg) (s : State) : Res State :=
  if rd = rb then .fault .modifyRegisterOverlap
  else
    loadFrom t rd (s.reg rb - modifyStep t s) (fun u => u.setReg rb (s.reg rb - modifyStep t s)) s

/-- `ld %rd,[%sp+imm7]` of any kind. -/
def loadSpDisp (t : Transfer) (rd : Reg) (imm7 : BitVec 7) (s : State) : Res State :=
  loadFrom t rd (spDisplacedAddress s imm7) id s

/-- `ld %rd,[imm7]` of any kind. -/
def loadAbs (t : Transfer) (rd : Reg) (imm7 : BitVec 7) (s : State) : Res State :=
  loadFrom t rd (absoluteAddress s imm7) id s

/-- `ld [%rb],%rs` of any kind. -/
def storeInd (t : Transfer) (rb rs : Reg) (s : State) : Res State :=
  storeTo t rs (indirectAddress s rb) id s

/-- `ld [%rb]+,%rs` of any kind: with `rs` = `rb` the old value is stored (R162). -/
def storePostInc (t : Transfer) (rb rs : Reg) (s : State) : Res State :=
  storeTo t rs (s.reg rb) (fun u => u.setReg rb (s.reg rb + modifyStep t s)) s

/-- `ld [%rb]-,%rs` of any kind: with `rs` = `rb` the old value is stored (R162). -/
def storePostDec (t : Transfer) (rb rs : Reg) (s : State) : Res State :=
  storeTo t rs (s.reg rb) (fun u => u.setReg rb (s.reg rb - modifyStep t s)) s

/-- `ld -[%rb],%rs` of any kind: the registers may not coincide (R162). -/
def storePreDec (t : Transfer) (rb rs : Reg) (s : State) : Res State :=
  if rs = rb then .fault .modifyRegisterOverlap
  else
    storeTo t rs (s.reg rb - modifyStep t s) (fun u => u.setReg rb (s.reg rb - modifyStep t s)) s

/-- `ld [%sp+imm7],%rs` of any kind. -/
def storeSpDisp (t : Transfer) (imm7 : BitVec 7) (rs : Reg) (s : State) : Res State :=
  storeTo t rs (spDisplacedAddress s imm7) id s

/-- `ld [imm7],%rs` of any kind. -/
def storeAbs (t : Transfer) (imm7 : BitVec 7) (rs : Reg) (s : State) : Res State :=
  storeTo t rs (absoluteAddress s imm7) id s

/-- A register result: `rd` takes the value and the instruction ends. -/
def toReg (rd : Reg) (v : Word) (s : State) : State := advance (s.setReg rd v)

end Sys2Proof.Machine
end

