-- ==== Sys2Proof/Machine/Logic.lean ====
section
/-!
DEFINITION. `and`, `or`, `xor`, `not` (spec 43_logic.md, R250 to R266) and the conditional execution they share with
the arithmetic instructions.
-/

namespace Sys2Proof.Machine

/-- Runs a `/c` (`want` true) or `/nc` (`want` false) form, or acts as a `nop` that uses up the pending
`ext` (R153, R250, R272). -/
def onCarry (want : Bool) (run : State → State) (s : State) : State :=
  if s.psr.c = want then run s else advance s

/-- `LogicResult` (R250): the 16-bit result, V cleared, Z and N from it, C kept. -/
def logicResult (rd : Reg) (res : BitVec 16) (s : State) : State :=
  { toReg rd (zext24 res) s with psr := s.psr.withVZN res false }

/-- A two-operand logic instruction in its `%rd,%rs` form (R144, R250). -/
def logicReg (op : BitVec 16 → BitVec 16 → BitVec 16) (rd rs : Reg) (s : State) : State :=
  logicResult rd (op (firstOperand16 s rd rs) (secondOperand16 s rs)) s

/-- A two-operand logic instruction in its `%rd,sign7` form (R143, R250). -/
def logicImm (op : BitVec 16 → BitVec 16 → BitVec 16) (rd : Reg) (sign7 : BitVec 7) (s : State) :
    Res State :=
  bindRes (s.ext.sign16 sign7) fun v => .next (logicResult rd (op (low16 (s.reg rd)) v) s)

/-- `not %rd,%rs`: the source is `rs`, or the `ext` immediate (R144, R263). -/
def notReg (rd rs : Reg) (s : State) : State := logicResult rd (~~~ secondOperand16 s rs) s

/-- `and %rd,%rs` (R251). -/
def execAndRR (rd rs : Reg) (s : State) : Res State :=
  .next (logicReg (· &&& ·) rd rs s)

/-- `and/c %rd,%rs` (R252): executes when C = 1. -/
def execAndC (rd rs : Reg) (s : State) : Res State :=
  .next (onCarry true (logicReg (· &&& ·) rd rs) s)

/-- `and/nc %rd,%rs` (R253): executes when C = 0. -/
def execAndNC (rd rs : Reg) (s : State) : Res State :=
  .next (onCarry false (logicReg (· &&& ·) rd rs) s)

/-- `and %rd,sign7` (R254). -/
def execAndImm (rd : Reg) (sign7 : BitVec 7) (s : State) : Res State :=
  logicImm (· &&& ·) rd sign7 s

/-- `or %rd,%rs` (R255). -/
def execOrRR (rd rs : Reg) (s : State) : Res State :=
  .next (logicReg (· ||| ·) rd rs s)

/-- `or/c %rd,%rs` (R256): executes when C = 1. -/
def execOrC (rd rs : Reg) (s : State) : Res State :=
  .next (onCarry true (logicReg (· ||| ·) rd rs) s)

/-- `or/nc %rd,%rs` (R257): executes when C = 0. -/
def execOrNC (rd rs : Reg) (s : State) : Res State :=
  .next (onCarry false (logicReg (· ||| ·) rd rs) s)

/-- `or %rd,sign7` (R258). -/
def execOrImm (rd : Reg) (sign7 : BitVec 7) (s : State) : Res State :=
  logicImm (· ||| ·) rd sign7 s

/-- `xor %rd,%rs` (R259). -/
def execXorRR (rd rs : Reg) (s : State) : Res State :=
  .next (logicReg (· ^^^ ·) rd rs s)

/-- `xor/c %rd,%rs` (R260): executes when C = 1. -/
def execXorC (rd rs : Reg) (s : State) : Res State :=
  .next (onCarry true (logicReg (· ^^^ ·) rd rs) s)

/-- `xor/nc %rd,%rs` (R261): executes when C = 0. -/
def execXorNC (rd rs : Reg) (s : State) : Res State :=
  .next (onCarry false (logicReg (· ^^^ ·) rd rs) s)

/-- `xor %rd,sign7` (R262). -/
def execXorImm (rd : Reg) (sign7 : BitVec 7) (s : State) : Res State :=
  logicImm (· ^^^ ·) rd sign7 s

/-- `not %rd,%rs` (R263). -/
def execNotRR (rd rs : Reg) (s : State) : Res State :=
  .next (notReg rd rs s)

/-- `not/c %rd,%rs` (R264): executes when C = 1. -/
def execNotC (rd rs : Reg) (s : State) : Res State :=
  .next (onCarry true (notReg rd rs) s)

/-- `not/nc %rd,%rs` (R265): executes when C = 0. -/
def execNotNC (rd rs : Reg) (s : State) : Res State :=
  .next (onCarry false (notReg rd rs) s)

/-- `not %rd,sign7` (R266): the old value of `rd` takes no part. -/
def execNotImm (rd : Reg) (sign7 : BitVec 7) (s : State) : Res State :=
  bindRes (s.ext.sign16 sign7) fun v => .next (logicResult rd (~~~ v) s)

end Sys2Proof.Machine
end

