-- ==== Sys2Proof/Machine/Arithmetic.lean ====
section
/-!
DEFINITION. The 16-bit and 24-bit arithmetic and compare instructions (spec 44_arithmetic.md, R270 to R314).
-/

namespace Sys2Proof.Machine

/-- A 16-bit result written with C, V, Z and N (R270). -/
def arithResult (rd : Reg) (r : Arith16) (s : State) : State :=
  { toReg rd (zext24 r.value) s with psr := (s.psr.withVZN r.value r.overflow).withC r.carry }

/-- A 16-bit result of a conditional form: C is not written (R272). -/
def arithResultKeepC (rd : Reg) (r : Arith16) (s : State) : State :=
  { toReg rd (zext24 r.value) s with psr := s.psr.withVZN r.value r.overflow }

/-- The flags of a 16-bit compare (R271). -/
def compareResult (r : Arith16) (s : State) : State :=
  { advance s with psr := (s.psr.withVZN r.value r.overflow).withC r.carry }

/-- The flags of a conditional 16-bit compare: C is not written (R272). -/
def compareResultKeepC (r : Arith16) (s : State) : State :=
  { advance s with psr := s.psr.withVZN r.value r.overflow }

/-- `Add16` or `Sub16` on the operands of a `%rd,%rs` form (R144, R273). -/
def onRegs (op : BitVec 16 → BitVec 16 → Bool → Arith16) (rd rs : Reg) (cin : Bool) (s : State) :
    Arith16 :=
  op (firstOperand16 s rd rs) (secondOperand16 s rs) cin

/-- A 16-bit arithmetic instruction with a zero-extended immediate (R141, R273). -/
def arithImm (op : BitVec 16 → BitVec 16 → Bool → Arith16) (rd : Reg) (imm7 : BitVec 7) (cin : Bool)
    (s : State) : Res State :=
  bindRes (s.ext.imm16 imm7) fun v => .next (arithResult rd (op (low16 (s.reg rd)) v cin) s)

/-- A 16-bit compare with a sign-extended immediate (R143, R273). -/
def compareImm (rd : Reg) (sign7 : BitVec 7) (cin : Bool) (s : State) : Res State :=
  bindRes (s.ext.sign16 sign7) fun v => .next (compareResult (sub16 (low16 (s.reg rd)) v cin) s)

/-- The operands of a 24-bit form whose own first source is `rd` (R273). -/
def onRegs24 (op : Word → Word → Word) (rd rs : Reg) (s : State) : Word :=
  op (firstOperand24 s (s.reg rd) rs) (secondOperand24 s rs)

/-- The operands of a 24-bit form whose own first source is SP (R273). -/
def onSp24 (op : Word → Word → Word) (rs : Reg) (s : State) : Word :=
  op (firstOperand24 s s.sp rs) (secondOperand24 s rs)

/-- A 24-bit result written to SP: bits 1:0 are dropped and the NMI mask is not touched (R298, R303). -/
def toSp (v : Word) (s : State) : State := advance (s.setSp v)

/-- The flags of `cmp.a` (R298, R311). -/
def compareResult24 (a b : Word) (s : State) : State :=
  { advance s with psr := s.psr.withCompare24 a b }

/-- `cmp.a %rd,%rs` when its conditional form executes: Z only (R312, R313). -/
def compareZero24 (rd rs : Reg) (s : State) : State :=
  { advance s with
    psr := s.psr.withZero24 (firstOperand24 s (s.reg rd) rs) (secondOperand24 s rs) }

/-- `add %rd,%rs` (R274). -/
def execAddRR (rd rs : Reg) (s : State) : Res State :=
  .next (arithResult rd (onRegs add16 rd rs false s) s)

/-- `add/c %rd,%rs` (R275): executes when C = 1. -/
def execAddC (rd rs : Reg) (s : State) : Res State :=
  .next (onCarry true (fun u => arithResultKeepC rd (onRegs add16 rd rs false u) u) s)

/-- `add/nc %rd,%rs` (R276): executes when C = 0. -/
def execAddNC (rd rs : Reg) (s : State) : Res State :=
  .next (onCarry false (fun u => arithResultKeepC rd (onRegs add16 rd rs false u) u) s)

/-- `add %rd,imm7` (R277). -/
def execAddImm (rd : Reg) (imm7 : BitVec 7) (s : State) : Res State :=
  arithImm add16 rd imm7 false s

/-- `adc %rd,%rs` (R278). -/
def execAdcRR (rd rs : Reg) (s : State) : Res State :=
  .next (arithResult rd (onRegs add16 rd rs s.psr.c s) s)

/-- `adc/c %rd,%rs` (R279): executes when C = 1. -/
def execAdcC (rd rs : Reg) (s : State) : Res State :=
  .next (onCarry true (fun u => arithResultKeepC rd (onRegs add16 rd rs u.psr.c u) u) s)

/-- `adc/nc %rd,%rs` (R280): executes when C = 0. -/
def execAdcNC (rd rs : Reg) (s : State) : Res State :=
  .next (onCarry false (fun u => arithResultKeepC rd (onRegs add16 rd rs u.psr.c u) u) s)

/-- `adc %rd,imm7` (R281). -/
def execAdcImm (rd : Reg) (imm7 : BitVec 7) (s : State) : Res State :=
  arithImm add16 rd imm7 s.psr.c s

/-- `sub %rd,%rs` (R282). -/
def execSubRR (rd rs : Reg) (s : State) : Res State :=
  .next (arithResult rd (onRegs sub16 rd rs false s) s)

/-- `sub/c %rd,%rs` (R283): executes when C = 1. -/
def execSubC (rd rs : Reg) (s : State) : Res State :=
  .next (onCarry true (fun u => arithResultKeepC rd (onRegs sub16 rd rs false u) u) s)

/-- `sub/nc %rd,%rs` (R284): executes when C = 0. -/
def execSubNC (rd rs : Reg) (s : State) : Res State :=
  .next (onCarry false (fun u => arithResultKeepC rd (onRegs sub16 rd rs false u) u) s)

/-- `sub %rd,imm7` (R285). -/
def execSubImm (rd : Reg) (imm7 : BitVec 7) (s : State) : Res State :=
  arithImm sub16 rd imm7 false s

/-- `sbc %rd,%rs` (R286). -/
def execSbcRR (rd rs : Reg) (s : State) : Res State :=
  .next (arithResult rd (onRegs sub16 rd rs s.psr.c s) s)

/-- `sbc/c %rd,%rs` (R287): executes when C = 1. -/
def execSbcC (rd rs : Reg) (s : State) : Res State :=
  .next (onCarry true (fun u => arithResultKeepC rd (onRegs sub16 rd rs u.psr.c u) u) s)

/-- `sbc/nc %rd,%rs` (R288): executes when C = 0. -/
def execSbcNC (rd rs : Reg) (s : State) : Res State :=
  .next (onCarry false (fun u => arithResultKeepC rd (onRegs sub16 rd rs u.psr.c u) u) s)

/-- `sbc %rd,imm7` (R289). -/
def execSbcImm (rd : Reg) (imm7 : BitVec 7) (s : State) : Res State :=
  arithImm sub16 rd imm7 s.psr.c s

/-- `cmp %rd,%rs` (R290). -/
def execCmpRR (rd rs : Reg) (s : State) : Res State :=
  .next (compareResult (onRegs sub16 rd rs false s) s)

/-- `cmp/c %rd,%rs` (R291): executes when C = 1. -/
def execCmpC (rd rs : Reg) (s : State) : Res State :=
  .next (onCarry true (fun u => compareResultKeepC (onRegs sub16 rd rs false u) u) s)

/-- `cmp/nc %rd,%rs` (R292): executes when C = 0. -/
def execCmpNC (rd rs : Reg) (s : State) : Res State :=
  .next (onCarry false (fun u => compareResultKeepC (onRegs sub16 rd rs false u) u) s)

/-- `cmp %rd,sign7` (R293). -/
def execCmpImm (rd : Reg) (sign7 : BitVec 7) (s : State) : Res State :=
  compareImm rd sign7 false s

/-- `cmc %rd,%rs` (R294). -/
def execCmcRR (rd rs : Reg) (s : State) : Res State :=
  .next (compareResult (onRegs sub16 rd rs s.psr.c s) s)

/-- `cmc/c %rd,%rs` (R295): executes when C = 1. -/
def execCmcC (rd rs : Reg) (s : State) : Res State :=
  .next (onCarry true (fun u => compareResultKeepC (onRegs sub16 rd rs u.psr.c u) u) s)

/-- `cmc/nc %rd,%rs` (R296): executes when C = 0. -/
def execCmcNC (rd rs : Reg) (s : State) : Res State :=
  .next (onCarry false (fun u => compareResultKeepC (onRegs sub16 rd rs u.psr.c u) u) s)

/-- `cmc %rd,sign7` (R297). -/
def execCmcImm (rd : Reg) (sign7 : BitVec 7) (s : State) : Res State :=
  compareImm rd sign7 s.psr.c s

/-- `add.a %rd,%rs` (R299). -/
def execAddaRR (rd rs : Reg) (s : State) : Res State :=
  .next (toReg rd (onRegs24 (· + ·) rd rs s) s)

/-- `add.a/c %rd,%rs` (R300): executes when C = 1. -/
def execAddaC (rd rs : Reg) (s : State) : Res State :=
  .next (onCarry true (fun u => toReg rd (onRegs24 (· + ·) rd rs u) u) s)

/-- `add.a/nc %rd,%rs` (R301): executes when C = 0. -/
def execAddaNC (rd rs : Reg) (s : State) : Res State :=
  .next (onCarry false (fun u => toReg rd (onRegs24 (· + ·) rd rs u) u) s)

/-- `add.a %rd,imm7` (R302). -/
def execAddaImm (rd : Reg) (imm7 : BitVec 7) (s : State) : Res State :=
  .next (toReg rd (s.reg rd + s.ext.imm24 imm7) s)

/-- `add.a %sp,%rs` (R303). -/
def execAddaSpRs (rs : Reg) (s : State) : Res State :=
  .next (toSp (onSp24 (· + ·) rs s) s)

/-- `add.a %sp,imm7` (R304). -/
def execAddaSpImm (imm7 : BitVec 7) (s : State) : Res State :=
  .next (toSp (s.sp + s.ext.imm24 imm7) s)

/-- `sub.a %rd,%rs` (R305). -/
def execSubaRR (rd rs : Reg) (s : State) : Res State :=
  .next (toReg rd (onRegs24 (· - ·) rd rs s) s)

/-- `sub.a/c %rd,%rs` (R306): executes when C = 1. -/
def execSubaC (rd rs : Reg) (s : State) : Res State :=
  .next (onCarry true (fun u => toReg rd (onRegs24 (· - ·) rd rs u) u) s)

/-- `sub.a/nc %rd,%rs` (R307): executes when C = 0. -/
def execSubaNC (rd rs : Reg) (s : State) : Res State :=
  .next (onCarry false (fun u => toReg rd (onRegs24 (· - ·) rd rs u) u) s)

/-- `sub.a %rd,imm7` (R308). -/
def execSubaImm (rd : Reg) (imm7 : BitVec 7) (s : State) : Res State :=
  .next (toReg rd (s.reg rd - s.ext.imm24 imm7) s)

/-- `sub.a %sp,%rs` (R309). -/
def execSubaSpRs (rs : Reg) (s : State) : Res State :=
  .next (toSp (onSp24 (· - ·) rs s) s)

/-- `sub.a %sp,imm7` (R310). -/
def execSubaSpImm (imm7 : BitVec 7) (s : State) : Res State :=
  .next (toSp (s.sp - s.ext.imm24 imm7) s)

/-- `cmp.a %rd,%rs` (R311). -/
def execCmpaRR (rd rs : Reg) (s : State) : Res State :=
  .next (compareResult24 (firstOperand24 s (s.reg rd) rs) (secondOperand24 s rs) s)

/-- `cmp.a/c %rd,%rs` (R312): executes when C = 1. -/
def execCmpaC (rd rs : Reg) (s : State) : Res State :=
  .next (onCarry true (compareZero24 rd rs) s)

/-- `cmp.a/nc %rd,%rs` (R313): executes when C = 0. -/
def execCmpaNC (rd rs : Reg) (s : State) : Res State :=
  .next (onCarry false (compareZero24 rd rs) s)

/-- `cmp.a %rd,imm7` (R314). -/
def execCmpaImm (rd : Reg) (imm7 : BitVec 7) (s : State) : Res State :=
  .next (compareResult24 (s.reg rd) (s.ext.imm24 imm7) s)

end Sys2Proof.Machine
end

