-- ==== Sys2Proof/Machine/Branch.lean ====
section
/-!
DEFINITION. Jumps, calls, returns, software interrupts and the debug instructions (spec 46_branch.md, R340 to R388).
-/

namespace Sys2Proof.Machine

/-- A plain conditional jump: taken, PC takes the target; not taken, mask interval (6) opens (R353 and
its like, R450). -/
def condJump (c : Cond) (sign7 : BitVec 7) (s : State) : State :=
  if c.holds s.psr then jumpTo s (relTarget s (s.ext.rel7 sign7)) else advance (holdIrq s)

/-- A delayed conditional jump: the flags are tested now (R342 item 1, R354). -/
def condJumpDelayed (c : Cond) (sign7 : BitVec 7) (s : State) : State :=
  delayedBranch s .jump (c.holds s.psr) (relTarget s (s.ext.rel7 sign7))

/-- A plain call: the address of the next code is pushed (R341, R373). -/
def callTo (target : Word) (s : State) : Res State :=
  bindRes (push s (zeroTop (s.pc + 2))) fun s1 => .next (jumpTo s1 target)

/-- A delayed call: the address after the slot is pushed, before the slot runs (R341, R374). -/
def callToDelayed (target : Word) (s : State) : Res State :=
  bindRes (push s (zeroTop (s.pc + 4))) fun s1 =>
  .next (delayedBranch s1 .callOrReturn true target)

/-- `jpr sign10` (R345). -/
def execJprImm (sign10 : BitVec 10) (s : State) : Res State :=
  bindRes (s.ext.rel10 sign10) fun d => .next (jumpTo s (relTarget s d))

/-- `jpr %rb` (R347). -/
def execJprReg (rb : Reg) (s : State) : Res State :=
  .next (jumpTo s (relTarget s (relReg (s.reg rb))))

/-- `jpr.d sign10` (R346). -/
def execJprDelayedImm (sign10 : BitVec 10) (s : State) : Res State :=
  bindRes (s.ext.rel10 sign10) fun d => .next (delayedBranch s .jump true (relTarget s d))

/-- `jpr.d %rb` (R348). -/
def execJprDelayedReg (rb : Reg) (s : State) : Res State :=
  .next (delayedBranch s .jump true (relTarget s (relReg (s.reg rb))))

/-- `jpa imm7` (R349). -/
def execJpaImm (imm7 : BitVec 7) (s : State) : Res State :=
  .next (jumpTo s (absTarget (s.ext.imm24 imm7)))

/-- `jpa %rb` (R351). -/
def execJpaReg (rb : Reg) (s : State) : Res State :=
  .next (jumpTo s (absTarget (s.reg rb)))

/-- `jpa.d imm7` (R350). -/
def execJpaDelayedImm (imm7 : BitVec 7) (s : State) : Res State :=
  .next (delayedBranch s .jump true (absTarget (s.ext.imm24 imm7)))

/-- `jpa.d %rb` (R352). -/
def execJpaDelayedReg (rb : Reg) (s : State) : Res State :=
  .next (delayedBranch s .jump true (absTarget (s.reg rb)))

/-- `call sign10` (R373). -/
def execCallImm (sign10 : BitVec 10) (s : State) : Res State :=
  bindRes (s.ext.rel10 sign10) fun d => callTo (relTarget s d) s

/-- `call %rb` (R375). -/
def execCallReg (rb : Reg) (s : State) : Res State :=
  callTo (relTarget s (relReg (s.reg rb))) s

/-- `call.d sign10` (R374). -/
def execCallDelayedImm (sign10 : BitVec 10) (s : State) : Res State :=
  bindRes (s.ext.rel10 sign10) fun d => callToDelayed (relTarget s d) s

/-- `call.d %rb` (R376). -/
def execCallDelayedReg (rb : Reg) (s : State) : Res State :=
  callToDelayed (relTarget s (relReg (s.reg rb))) s

/-- `calla imm7` (R377). -/
def execCallaImm (imm7 : BitVec 7) (s : State) : Res State :=
  callTo (absTarget (s.ext.imm24 imm7)) s

/-- `calla %rb` (R379). -/
def execCallaReg (rb : Reg) (s : State) : Res State :=
  callTo (absTarget (s.reg rb)) s

/-- `calla.d imm7` (R378). -/
def execCallaDelayedImm (imm7 : BitVec 7) (s : State) : Res State :=
  callToDelayed (absTarget (s.ext.imm24 imm7)) s

/-- `calla.d %rb` (R380). -/
def execCallaDelayedReg (rb : Reg) (s : State) : Res State :=
  callToDelayed (absTarget (s.reg rb)) s

/-- `jrgt sign7` (R353). -/
def execJrgt (sign7 : BitVec 7) (s : State) : Res State :=
  .next (condJump .gt sign7 s)

/-- `jrgt.d sign7` (R354). -/
def execJrgtDelayed (sign7 : BitVec 7) (s : State) : Res State :=
  .next (condJumpDelayed .gt sign7 s)

/-- `jrge sign7` (R355). -/
def execJrge (sign7 : BitVec 7) (s : State) : Res State :=
  .next (condJump .ge sign7 s)

/-- `jrge.d sign7` (R356). -/
def execJrgeDelayed (sign7 : BitVec 7) (s : State) : Res State :=
  .next (condJumpDelayed .ge sign7 s)

/-- `jrlt sign7` (R357). -/
def execJrlt (sign7 : BitVec 7) (s : State) : Res State :=
  .next (condJump .lt sign7 s)

/-- `jrlt.d sign7` (R358). -/
def execJrltDelayed (sign7 : BitVec 7) (s : State) : Res State :=
  .next (condJumpDelayed .lt sign7 s)

/-- `jrle sign7` (R359). -/
def execJrle (sign7 : BitVec 7) (s : State) : Res State :=
  .next (condJump .le sign7 s)

/-- `jrle.d sign7` (R360). -/
def execJrleDelayed (sign7 : BitVec 7) (s : State) : Res State :=
  .next (condJumpDelayed .le sign7 s)

/-- `jrugt sign7` (R361). -/
def execJrugt (sign7 : BitVec 7) (s : State) : Res State :=
  .next (condJump .ugt sign7 s)

/-- `jrugt.d sign7` (R362). -/
def execJrugtDelayed (sign7 : BitVec 7) (s : State) : Res State :=
  .next (condJumpDelayed .ugt sign7 s)

/-- `jruge sign7` (R363). -/
def execJruge (sign7 : BitVec 7) (s : State) : Res State :=
  .next (condJump .uge sign7 s)

/-- `jruge.d sign7` (R364). -/
def execJrugeDelayed (sign7 : BitVec 7) (s : State) : Res State :=
  .next (condJumpDelayed .uge sign7 s)

/-- `jrult sign7` (R365). -/
def execJrult (sign7 : BitVec 7) (s : State) : Res State :=
  .next (condJump .ult sign7 s)

/-- `jrult.d sign7` (R366). -/
def execJrultDelayed (sign7 : BitVec 7) (s : State) : Res State :=
  .next (condJumpDelayed .ult sign7 s)

/-- `jrule sign7` (R367). -/
def execJrule (sign7 : BitVec 7) (s : State) : Res State :=
  .next (condJump .ule sign7 s)

/-- `jrule.d sign7` (R368). -/
def execJruleDelayed (sign7 : BitVec 7) (s : State) : Res State :=
  .next (condJumpDelayed .ule sign7 s)

/-- `jreq sign7` (R369). -/
def execJreq (sign7 : BitVec 7) (s : State) : Res State :=
  .next (condJump .eq sign7 s)

/-- `jreq.d sign7` (R370). -/
def execJreqDelayed (sign7 : BitVec 7) (s : State) : Res State :=
  .next (condJumpDelayed .eq sign7 s)

/-- `jrne sign7` (R371). -/
def execJrne (sign7 : BitVec 7) (s : State) : Res State :=
  .next (condJump .ne sign7 s)

/-- `jrne.d sign7` (R372). -/
def execJrneDelayed (sign7 : BitVec 7) (s : State) : Res State :=
  .next (condJumpDelayed .ne sign7 s)

/-- `ret` (R381): the top byte of the word is ignored. -/
def execRet (s : State) : Res State :=
  bindRes (pop s) fun r => .next (jumpTo r.2 (low24 r.1))

/-- `ret.d` (R382): the pop happens before the slot. -/
def execRetDelayed (s : State) : Res State :=
  bindRes (pop s) fun r => .next (delayedBranch r.2 .callOrReturn true (even (low24 r.1)))

/-- `reti` (R383): PC and PSR come from the popped word; mask interval (4). -/
def execReti (s : State) : Res State :=
  bindRes (popFrame s) fun r => .next (holdIrq (jumpTo r.2 r.1))

/-- `reti.d` (R384): PSR is restored before the slot; the slot and the return target both execute before an
interrupt is accepted. -/
def execRetiDelayed (s : State) : Res State :=
  bindRes (popFrame s) fun r =>
  .next { delayedBranch r.2 .callOrReturn true (even r.1) with irqHold := 2 }

/-- `int imm5` (R385). -/
def execIntImm (vec : BitVec 5) (s : State) : Res State :=
  softwareInterrupt s vec none

/-- `intl imm5,imm3` (R386): IL takes `imm3`. -/
def execIntlImm (vec : BitVec 5) (level : BitVec 3) (s : State) : Res State :=
  softwareInterrupt s vec (some level)

/-- `brk` (R387): debug entry with the address of the next code; IE is cleared after PSR is saved (D43). -/
def execBrk (s : State) : Res State :=
  if s.dcr.dm then .fault .brkInDebugMode
  else bindRes (debugEntry s (s.pc + 2)) fun s1 => .next (clearIe s1)

/-- `retd` (R388). -/
def execRetd (s : State) : Res State :=
  if s.dcr.dm then debugReturn s else .fault .retdInUserMode

end Sys2Proof.Machine
end

