-- ==== Sys2Proof/Machine/Conversion.lean ====
section
/-!
DEFINITION. `cv.ab`, `cv.as`, `cv.al`, `cv.la`, `cv.ls` (spec 48_conversion.md, R410 to R415).
-/

namespace Sys2Proof.Machine

/-- `cv.ab %rd,%rs` (R411): byte to 24 bits, sign-extended. -/
def execCvab (rd rs : Reg) (s : State) : Res State :=
  .next (toReg rd (((s.reg rs).extractLsb' 0 8).signExtend 24) s)

/-- `cv.as %rd,%rs` (R412): 16 bits to 24 bits, sign-extended. -/
def execCvas (rd rs : Reg) (s : State) : Res State :=
  .next (toReg rd ((low16 (s.reg rs)).signExtend 24) s)

/-- `cv.al %rd,%rs` (R413): the low byte of `rs` into bits 23:16 of `rd`. -/
def execCval (rd rs : Reg) (s : State) : Res State :=
  .next (toReg rd ((s.reg rs).extractLsb' 0 8 ++ low16 (s.reg rd)) s)

/-- `cv.la %rd,%rs` (R414): bits 23:16 of `rs`, zero-extended. -/
def execCvla (rd rs : Reg) (s : State) : Res State :=
  .next (toReg rd (((s.reg rs).extractLsb' 16 8).setWidth 24) s)

/-- `cv.ls %rd,%rs` (R415): bit 15 of `rs` in bits 15:0. -/
def execCvls (rd rs : Reg) (s : State) : Res State :=
  .next (toReg rd (if (s.reg rs).getLsbD 15 then 0x00ffff else 0x000000) s)

end Sys2Proof.Machine
end

