-- ==== Sys2Proof/Machine/Coprocessor.lean ====
section
/-!
DEFINITION. `ld.cw`, `ld.ca`, `ld.cf` (spec 49_coprocessor.md, R420 to R426).
-/

namespace Sys2Proof.Machine

/-- `Copro(kind, d0, d1)` (R420): the command joins the coprocessor's history. -/
def coproCommand (kind : CoproKind) (d0 d1 : Word) (s : State) : State :=
  { s with copro := ⟨kind, d0, d1⟩ :: s.copro }

/-- `ld.cw`: the answer is discarded (R421). -/
def coproWrite (rd : Reg) (d1 : Word) (s : State) : State :=
  advance (coproCommand .cw (s.reg rd) d1 s)

/-- `ld.cf`: the flags are the coprocessor's, a FREE VALUE (R425, log entry 10). -/
def coproFlagsOnly (rd : Reg) (d1 : Word) (s : State) : State :=
  let s1 := coproCommand .cf (s.reg rd) d1 s
  { advance s1 with
    psr := s.psr.withCopro (Config.coproFlags s.freeCount s1.copro)
    freeCount := s.freeCount + 1 }

/-- `ld.ca`: the result and the flags are the coprocessor's, FREE VALUES; both data are read before `rd`
is written (R423, log entry 10). -/
def coproAnswer (rd : Reg) (d1 : Word) (s : State) : State :=
  let s1 := coproCommand .ca (s.reg rd) d1 s
  { toReg rd (Config.coproResult s.freeCount s1.copro) s1 with
    psr := s.psr.withCopro (Config.coproFlags s.freeCount s1.copro)
    freeCount := s.freeCount + 1 }

/-- `ld.cw %rd,%rs` (R421). -/
def execLdcwRR (rd rs : Reg) (s : State) : Res State :=
  .next (coproWrite rd (s.reg rs) s)

/-- `ld.cw %rd,imm7` (R422). -/
def execLdcwImm (rd : Reg) (imm7 : BitVec 7) (s : State) : Res State :=
  .next (coproWrite rd (s.ext.imm24 imm7) s)

/-- `ld.ca %rd,%rs` (R423). -/
def execLdcaRR (rd rs : Reg) (s : State) : Res State :=
  .next (coproAnswer rd (s.reg rs) s)

/-- `ld.ca %rd,imm7` (R424). -/
def execLdcaImm (rd : Reg) (imm7 : BitVec 7) (s : State) : Res State :=
  .next (coproAnswer rd (s.ext.imm24 imm7) s)

/-- `ld.cf %rd,%rs` (R425). -/
def execLdcfRR (rd rs : Reg) (s : State) : Res State :=
  .next (coproFlagsOnly rd (s.reg rs) s)

/-- `ld.cf %rd,imm7` (R426). -/
def execLdcfImm (rd : Reg) (imm7 : BitVec 7) (s : State) : Res State :=
  .next (coproFlagsOnly rd (s.ext.imm24 imm7) s)

end Sys2Proof.Machine
end

