-- ==== Sys2Proof/Machine/ShiftSwap.lean ====
section
/-!
DEFINITION. `sr`, `sa`, `sl` and `swap` (spec 45_shift_swap.md, R320 to R328).
-/

namespace Sys2Proof.Machine

/-- A shift of `rd[15:0]` by the amount its operand selects (R320, R321): `rd[23:16]` becomes 0, Z and N
follow the result, V is kept, and C is the last bit shifted out. After a shift by 0 bits no bit has
left the register and C is a FREE VALUE, drawn here (log entry 8). -/
def shiftReg (kind : ShiftKind) (rd : Reg) (x : Nat) (s : State) : State :=
  let k := shiftAmount x
  let v := low16 (s.reg rd)
  let res := kind.result v k
  let s1 := toReg rd (zext24 res) s
  if k = 0 then
    { s1 with
      psr := (s.psr.withZN res).withC (Config.freeCarry s.freeCount)
      freeCount := s.freeCount + 1 }
  else { s1 with psr := (s.psr.withZN res).withC (kind.lastOut v k) }

/-- `sr %rd,%rs` (R322): the amount is selected by `rs[15:0]`. -/
def execSrRR (rd rs : Reg) (s : State) : Res State :=
  .next (shiftReg .sr rd (low16 (s.reg rs)).toNat s)

/-- `sr %rd,imm7` (R323): `ext` has no effect (R152). -/
def execSrImm (rd : Reg) (imm7 : BitVec 7) (s : State) : Res State :=
  .next (shiftReg .sr rd imm7.toNat s)

/-- `sa %rd,%rs` (R324): the amount is selected by `rs[15:0]`. -/
def execSaRR (rd rs : Reg) (s : State) : Res State :=
  .next (shiftReg .sa rd (low16 (s.reg rs)).toNat s)

/-- `sa %rd,imm7` (R325): `ext` has no effect (R152). -/
def execSaImm (rd : Reg) (imm7 : BitVec 7) (s : State) : Res State :=
  .next (shiftReg .sa rd imm7.toNat s)

/-- `sl %rd,%rs` (R326): the amount is selected by `rs[15:0]`. -/
def execSlRR (rd rs : Reg) (s : State) : Res State :=
  .next (shiftReg .sl rd (low16 (s.reg rs)).toNat s)

/-- `sl %rd,imm7` (R327): `ext` has no effect (R152). -/
def execSlImm (rd : Reg) (imm7 : BitVec 7) (s : State) : Res State :=
  .next (shiftReg .sl rd imm7.toNat s)

/-- `swap %rd,%rs` (R328): the low two bytes change places. -/
def execSwap (rd rs : Reg) (s : State) : Res State :=
  .next (toReg rd (zext24 ((s.reg rs).extractLsb' 0 8 ++ (s.reg rs).extractLsb' 8 8)) s)

end Sys2Proof.Machine
end

