-- ==== Sys2Proof/Machine/SystemControl.lean ====
section
/-!
DEFINITION. `nop`, `halt`, `slp`, `ei`, `di` (spec 47_system.md, R400 to R405) and `ext` (R150).
-/

namespace Sys2Proof.Machine

/-- `halt` and `slp`: execution stops after this instruction, acceptance sees IE at once, and mask
interval (5) opens (R402, R403, R503 item 3). -/
def powerDown (mode : RunState) (s : State) : State :=
  { advance (holdIrq s) with runState := mode, ieEffective := s.psr.ie, ieLag := 0 }

/-- `ei` and `di`: IE changes at once and `ie_effective` follows after IE_LAG boundaries, a FREE VALUE of
1, 2 or 3 drawn here (R404, R405, R503, log entry 9); mask interval (5) opens. DESIGN CHOICE (log entry
23): the count is the pseudocode's, so after a drawn lag of 1 an `ei` or `di` that directly follows finds
the intermediate IE in `ie_effective`, against the last sentences of R503 item 2. -/
def setIe (value : Bool) (s : State) : State :=
  { advance (holdIrq s) with
    psr := { s.psr with ie := value }
    ieLag := 1 + (Config.freeLag s.freeCount).val
    freeCount := s.freeCount + 1 }

/-- `nop` (R401). -/
def execNop (s : State) : Res State :=
  .next (advance s)

/-- `halt` (R402). -/
def execHalt (s : State) : Res State :=
  .next (powerDown .halted s)

/-- `slp` (R403). -/
def execSlp (s : State) : Res State :=
  .next (powerDown .sleeping s)

/-- `ei` (R404). -/
def execEi (s : State) : Res State :=
  .next (setIe true s)

/-- `di` (R405). -/
def execDi (s : State) : Res State :=
  .next (setIe false s)

/-- `ext imm13` (R150): the immediate is appended, the last two are kept, and mask interval (1) opens. -/
def execExt (imm13 : BitVec 13) (s : State) : Res State :=
  .next { holdIrq s with ext := s.ext.append imm13, dbgHold := true, pc := s.pc + 2 }

end Sys2Proof.Machine
end

