-- ==== Sys2Proof/Machine/TransferA.lean ====
section
/-!
DEFINITION. `ld.a` (spec 42_transfer_a.md, R210 to R236).
-/

namespace Sys2Proof.Machine

/-- The step of a modifying `[%sp]` form (R146, R210). -/
def spStep (s : State) : Word := s.ext.stepOr 4

/-- Whether a step keeps SP a multiple of 4 (D44). -/
def spStepMisaligned (s : State) : Bool := align4 (spStep s) != spStep s

/-- `ld.a %sp,...`: SP takes bits 23:2 of the value and the NMI mask is lifted (R215, R216, R47). -/
def loadSp (v : Word) (s : State) : State := { advance (s.setSp v) with nmiArmed := true }

/-- `ld.a %rd,%rs` (R211): all 24 bits. -/
def execLdaRR (rd rs : Reg) (s : State) : Res State :=
  .next (toReg rd (s.reg rs) s)

/-- `ld.a %rd,imm7` (R212): the zero-extended immediate. -/
def execLdaImm (rd : Reg) (imm7 : BitVec 7) (s : State) : Res State :=
  .next (toReg rd (s.ext.imm24 imm7) s)

/-- `ld.a %rd,%pc` (R213): the address of this instruction plus 2, in the slot of a `jr*.d`, `jpr.d` or `jpa.d` only (D11). -/
def execLdaRdPc (rd : Reg) (s : State) : Res State :=
  match s.delay with
  | some ⟨_, .jump⟩ => .next (toReg rd (s.pc + 2) s)
  | some ⟨_, .callOrReturn⟩ | none => .fault .pcReadOutsideDelaySlot

/-- `ld.a %rd,%sp` (R214): SP, whose bits 1:0 read 0. -/
def execLdaRdSp (rd : Reg) (s : State) : Res State :=
  .next (toReg rd (align4 s.sp) s)

/-- `ld.a %sp,%rs` (R215). -/
def execLdaSpRs (rs : Reg) (s : State) : Res State :=
  .next (loadSp (s.reg rs) s)

/-- `ld.a %sp,imm7` (R216). -/
def execLdaSpImm (imm7 : BitVec 7) (s : State) : Res State :=
  .next (loadSp (s.ext.imm24 imm7) s)

/-- `ld.a %rd,[%rb]` (R217): load, the base is not changed. -/
def execLdaLoadInd (rd rb : Reg) (s : State) : Res State :=
  loadInd .address rd rb s

/-- `ld.a %rd,[%rb]+` (R218): load, then the base goes up by the step. -/
def execLdaLoadPostInc (rd rb : Reg) (s : State) : Res State :=
  loadPostInc .address rd rb s

/-- `ld.a %rd,[%rb]-` (R219): load, then the base goes down by the step. -/
def execLdaLoadPostDec (rd rb : Reg) (s : State) : Res State :=
  loadPostDec .address rd rb s

/-- `ld.a %rd,-[%rb]` (R220): the base goes down by the step, then load. -/
def execLdaLoadPreDec (rd rb : Reg) (s : State) : Res State :=
  loadPreDec .address rd rb s

/-- `ld.a [%rb],%rs` (R223): store, the base is not changed. -/
def execLdaStoreInd (rb rs : Reg) (s : State) : Res State :=
  storeInd .address rb rs s

/-- `ld.a [%rb]+,%rs` (R224): store, then the base goes up by the step. -/
def execLdaStorePostInc (rb rs : Reg) (s : State) : Res State :=
  storePostInc .address rb rs s

/-- `ld.a [%rb]-,%rs` (R225): store, then the base goes down by the step. -/
def execLdaStorePostDec (rb rs : Reg) (s : State) : Res State :=
  storePostDec .address rb rs s

/-- `ld.a -[%rb],%rs` (R226): the base goes down by the step, then store. -/
def execLdaStorePreDec (rb rs : Reg) (s : State) : Res State :=
  storePreDec .address rb rs s

/-- `ld.a %rd,[%sp+imm7]` (R221): load relative to SP. -/
def execLdaLoadSpDisp (rd : Reg) (imm7 : BitVec 7) (s : State) : Res State :=
  loadSpDisp .address rd imm7 s

/-- `ld.a %rd,[imm7]` (R222): load from an absolute address. -/
def execLdaLoadAbs (rd : Reg) (imm7 : BitVec 7) (s : State) : Res State :=
  loadAbs .address rd imm7 s

/-- `ld.a [%sp+imm7],%rs` (R227): store relative to SP. -/
def execLdaStoreSpDisp (imm7 : BitVec 7) (rs : Reg) (s : State) : Res State :=
  storeSpDisp .address imm7 rs s

/-- `ld.a [imm7],%rs` (R228): store to an absolute address. -/
def execLdaStoreAbs (imm7 : BitVec 7) (rs : Reg) (s : State) : Res State :=
  storeAbs .address imm7 rs s

/-- `ld.a %rd,[%sp]` (R229): load at SP, which is not changed. -/
def execLdaLoadSp (rd : Reg) (s : State) : Res State :=
  loadFrom .address rd (spIndirectAddress s) id s

/-- `ld.a %rd,[%sp]+` (R230): the pop. -/
def execLdaLoadSpPostInc (rd : Reg) (s : State) : Res State :=
  if spStepMisaligned s then .fault .spStepMisaligned
  else loadFrom .address rd s.sp (fun u => u.setSp (s.sp + spStep s)) s

/-- `ld.a %rd,[%sp]-` (R231). -/
def execLdaLoadSpPostDec (rd : Reg) (s : State) : Res State :=
  if spStepMisaligned s then .fault .spStepMisaligned
  else loadFrom .address rd s.sp (fun u => u.setSp (s.sp - spStep s)) s

/-- `ld.a %rd,-[%sp]` (R232): SP takes the decremented value, its bits 1:0 dropped. -/
def execLdaLoadSpPreDec (rd : Reg) (s : State) : Res State :=
  loadFrom .address rd (s.sp - spStep s) (fun u => u.setSp (s.sp - spStep s)) s

/-- `ld.a [%sp],%rs` (R233): store at SP, which is not changed. -/
def execLdaStoreSp (rs : Reg) (s : State) : Res State :=
  storeTo .address rs (spIndirectAddress s) id s

/-- `ld.a [%sp]+,%rs` (R234). -/
def execLdaStoreSpPostInc (rs : Reg) (s : State) : Res State :=
  if spStepMisaligned s then .fault .spStepMisaligned
  else storeTo .address rs s.sp (fun u => u.setSp (s.sp + spStep s)) s

/-- `ld.a [%sp]-,%rs` (R235). -/
def execLdaStoreSpPostDec (rs : Reg) (s : State) : Res State :=
  if spStepMisaligned s then .fault .spStepMisaligned
  else storeTo .address rs s.sp (fun u => u.setSp (s.sp - spStep s)) s

/-- `ld.a -[%sp],%rs` (R236): the push. -/
def execLdaStoreSpPreDec (rs : Reg) (s : State) : Res State :=
  storeTo .address rs (s.sp - spStep s) (fun u => u.setSp (s.sp - spStep s)) s

end Sys2Proof.Machine
end

