-- ==== Sys2Proof/Machine/TransferByteWord.lean ====
section
/-!
DEFINITION. `ld.b`, `ld.ub` and `ld` (spec 41_transfer_byte_word.md, R160 to R196).
-/

namespace Sys2Proof.Machine

/-- `ld.b %rd,%rs` (R163): the low byte, sign-extended to 16 bits. -/
def execLdbRR (rd rs : Reg) (s : State) : Res State :=
  .next (toReg rd (zext24 (((s.reg rs).extractLsb' 0 8).signExtend 16)) s)

/-- `ld.b %rd,[%rb]` (R164): load, the base is not changed. -/
def execLdbLoadInd (rd rb : Reg) (s : State) : Res State :=
  loadInd .signedByte rd rb s

/-- `ld.b %rd,[%rb]+` (R165): load, then the base goes up by the step. -/
def execLdbLoadPostInc (rd rb : Reg) (s : State) : Res State :=
  loadPostInc .signedByte rd rb s

/-- `ld.b %rd,[%rb]-` (R166): load, then the base goes down by the step. -/
def execLdbLoadPostDec (rd rb : Reg) (s : State) : Res State :=
  loadPostDec .signedByte rd rb s

/-- `ld.b %rd,-[%rb]` (R167): the base goes down by the step, then load. -/
def execLdbLoadPreDec (rd rb : Reg) (s : State) : Res State :=
  loadPreDec .signedByte rd rb s

/-- `ld.b [%rb],%rs` (R170): store, the base is not changed. -/
def execLdbStoreInd (rb rs : Reg) (s : State) : Res State :=
  storeInd .signedByte rb rs s

/-- `ld.b [%rb]+,%rs` (R171): store, then the base goes up by the step. -/
def execLdbStorePostInc (rb rs : Reg) (s : State) : Res State :=
  storePostInc .signedByte rb rs s

/-- `ld.b [%rb]-,%rs` (R172): store, then the base goes down by the step. -/
def execLdbStorePostDec (rb rs : Reg) (s : State) : Res State :=
  storePostDec .signedByte rb rs s

/-- `ld.b -[%rb],%rs` (R173): the base goes down by the step, then store. -/
def execLdbStorePreDec (rb rs : Reg) (s : State) : Res State :=
  storePreDec .signedByte rb rs s

/-- `ld.b %rd,[%sp+imm7]` (R168): load relative to SP. -/
def execLdbLoadSpDisp (rd : Reg) (imm7 : BitVec 7) (s : State) : Res State :=
  loadSpDisp .signedByte rd imm7 s

/-- `ld.b %rd,[imm7]` (R169): load from an absolute address. -/
def execLdbLoadAbs (rd : Reg) (imm7 : BitVec 7) (s : State) : Res State :=
  loadAbs .signedByte rd imm7 s

/-- `ld.b [%sp+imm7],%rs` (R174): store relative to SP. -/
def execLdbStoreSpDisp (imm7 : BitVec 7) (rs : Reg) (s : State) : Res State :=
  storeSpDisp .signedByte imm7 rs s

/-- `ld.b [imm7],%rs` (R175): store to an absolute address. -/
def execLdbStoreAbs (imm7 : BitVec 7) (rs : Reg) (s : State) : Res State :=
  storeAbs .signedByte imm7 rs s

/-- `ld.ub %rd,%rs` (R176): the low byte, zero-extended. -/
def execLdubRR (rd rs : Reg) (s : State) : Res State :=
  .next (toReg rd (((s.reg rs).extractLsb' 0 8).setWidth 24) s)

/-- `ld.ub %rd,[%rb]` (R177): load, the base is not changed. -/
def execLdubLoadInd (rd rb : Reg) (s : State) : Res State :=
  loadInd .unsignedByte rd rb s

/-- `ld.ub %rd,[%rb]+` (R178): load, then the base goes up by the step. -/
def execLdubLoadPostInc (rd rb : Reg) (s : State) : Res State :=
  loadPostInc .unsignedByte rd rb s

/-- `ld.ub %rd,[%rb]-` (R179): load, then the base goes down by the step. -/
def execLdubLoadPostDec (rd rb : Reg) (s : State) : Res State :=
  loadPostDec .unsignedByte rd rb s

/-- `ld.ub %rd,-[%rb]` (R180): the base goes down by the step, then load. -/
def execLdubLoadPreDec (rd rb : Reg) (s : State) : Res State :=
  loadPreDec .unsignedByte rd rb s

/-- `ld.ub %rd,[%sp+imm7]` (R181): load relative to SP. -/
def execLdubLoadSpDisp (rd : Reg) (imm7 : BitVec 7) (s : State) : Res State :=
  loadSpDisp .unsignedByte rd imm7 s

/-- `ld.ub %rd,[imm7]` (R182): load from an absolute address. -/
def execLdubLoadAbs (rd : Reg) (imm7 : BitVec 7) (s : State) : Res State :=
  loadAbs .unsignedByte rd imm7 s

/-- `ld %rd,%rs` (R183): the low 16 bits, zero-extended. -/
def execLdRR (rd rs : Reg) (s : State) : Res State :=
  .next (toReg rd (zext24 (low16 (s.reg rs))) s)

/-- `ld %rd,sign7` (R184): the sign-extended immediate in 16 bits. -/
def execLdImm (rd : Reg) (sign7 : BitVec 7) (s : State) : Res State :=
  bindRes (s.ext.sign16 sign7) fun v => .next (toReg rd (zext24 v) s)

/-- `ld %rd,[%rb]` (R185): load, the base is not changed. -/
def execLdLoadInd (rd rb : Reg) (s : State) : Res State :=
  loadInd .half rd rb s

/-- `ld %rd,[%rb]+` (R186): load, then the base goes up by the step. -/
def execLdLoadPostInc (rd rb : Reg) (s : State) : Res State :=
  loadPostInc .half rd rb s

/-- `ld %rd,[%rb]-` (R187): load, then the base goes down by the step. -/
def execLdLoadPostDec (rd rb : Reg) (s : State) : Res State :=
  loadPostDec .half rd rb s

/-- `ld %rd,-[%rb]` (R188): the base goes down by the step, then load. -/
def execLdLoadPreDec (rd rb : Reg) (s : State) : Res State :=
  loadPreDec .half rd rb s

/-- `ld [%rb],%rs` (R191): store, the base is not changed. -/
def execLdStoreInd (rb rs : Reg) (s : State) : Res State :=
  storeInd .half rb rs s

/-- `ld [%rb]+,%rs` (R192): store, then the base goes up by the step. -/
def execLdStorePostInc (rb rs : Reg) (s : State) : Res State :=
  storePostInc .half rb rs s

/-- `ld [%rb]-,%rs` (R193): store, then the base goes down by the step. -/
def execLdStorePostDec (rb rs : Reg) (s : State) : Res State :=
  storePostDec .half rb rs s

/-- `ld -[%rb],%rs` (R194): the base goes down by the step, then store. -/
def execLdStorePreDec (rb rs : Reg) (s : State) : Res State :=
  storePreDec .half rb rs s

/-- `ld %rd,[%sp+imm7]` (R189): load relative to SP. -/
def execLdLoadSpDisp (rd : Reg) (imm7 : BitVec 7) (s : State) : Res State :=
  loadSpDisp .half rd imm7 s

/-- `ld %rd,[imm7]` (R190): load from an absolute address. -/
def execLdLoadAbs (rd : Reg) (imm7 : BitVec 7) (s : State) : Res State :=
  loadAbs .half rd imm7 s

/-- `ld [%sp+imm7],%rs` (R195): store relative to SP. -/
def execLdStoreSpDisp (imm7 : BitVec 7) (rs : Reg) (s : State) : Res State :=
  storeSpDisp .half imm7 rs s

/-- `ld [imm7],%rs` (R196): store to an absolute address. -/
def execLdStoreAbs (imm7 : BitVec 7) (rs : Reg) (s : State) : Res State :=
  storeAbs .half imm7 rs s

end Sys2Proof.Machine
end

