-- ==== Sys2Proof/Machine/Dispatch.lean ====
section
/-!
DEFINITION. What each instruction does: one arm per constructor, each one call of its meaning.
-/

namespace Sys2Proof.Machine

def exec (i : Instr) (s : State) : Host.Outcome State Fault Refusal :=
  match i with
  | .ldbLoadInd rd rb => Sys2Proof.Machine.execLdbLoadInd rd rb s
  | .ldbLoadPostInc rd rb => Sys2Proof.Machine.execLdbLoadPostInc rd rb s
  | .ldbLoadPostDec rd rb => Sys2Proof.Machine.execLdbLoadPostDec rd rb s
  | .ldbLoadPreDec rd rb => Sys2Proof.Machine.execLdbLoadPreDec rd rb s
  | .ldubLoadInd rd rb => Sys2Proof.Machine.execLdubLoadInd rd rb s
  | .ldubLoadPostInc rd rb => Sys2Proof.Machine.execLdubLoadPostInc rd rb s
  | .ldubLoadPostDec rd rb => Sys2Proof.Machine.execLdubLoadPostDec rd rb s
  | .ldubLoadPreDec rd rb => Sys2Proof.Machine.execLdubLoadPreDec rd rb s
  | .ldLoadInd rd rb => Sys2Proof.Machine.execLdLoadInd rd rb s
  | .ldLoadPostInc rd rb => Sys2Proof.Machine.execLdLoadPostInc rd rb s
  | .ldLoadPostDec rd rb => Sys2Proof.Machine.execLdLoadPostDec rd rb s
  | .ldLoadPreDec rd rb => Sys2Proof.Machine.execLdLoadPreDec rd rb s
  | .ldaLoadInd rd rb => Sys2Proof.Machine.execLdaLoadInd rd rb s
  | .ldaLoadPostInc rd rb => Sys2Proof.Machine.execLdaLoadPostInc rd rb s
  | .ldaLoadPostDec rd rb => Sys2Proof.Machine.execLdaLoadPostDec rd rb s
  | .ldaLoadPreDec rd rb => Sys2Proof.Machine.execLdaLoadPreDec rd rb s
  | .ldbStoreInd rb rs => Sys2Proof.Machine.execLdbStoreInd rb rs s
  | .ldbStorePostInc rb rs => Sys2Proof.Machine.execLdbStorePostInc rb rs s
  | .ldbStorePostDec rb rs => Sys2Proof.Machine.execLdbStorePostDec rb rs s
  | .ldbStorePreDec rb rs => Sys2Proof.Machine.execLdbStorePreDec rb rs s
  | .ldStoreInd rb rs => Sys2Proof.Machine.execLdStoreInd rb rs s
  | .ldStorePostInc rb rs => Sys2Proof.Machine.execLdStorePostInc rb rs s
  | .ldStorePostDec rb rs => Sys2Proof.Machine.execLdStorePostDec rb rs s
  | .ldStorePreDec rb rs => Sys2Proof.Machine.execLdStorePreDec rb rs s
  | .ldaStoreInd rb rs => Sys2Proof.Machine.execLdaStoreInd rb rs s
  | .ldaStorePostInc rb rs => Sys2Proof.Machine.execLdaStorePostInc rb rs s
  | .ldaStorePostDec rb rs => Sys2Proof.Machine.execLdaStorePostDec rb rs s
  | .ldaStorePreDec rb rs => Sys2Proof.Machine.execLdaStorePreDec rb rs s
  | .ldbRR rd rs => Sys2Proof.Machine.execLdbRR rd rs s
  | .ldubRR rd rs => Sys2Proof.Machine.execLdubRR rd rs s
  | .ldRR rd rs => Sys2Proof.Machine.execLdRR rd rs s
  | .ldaRR rd rs => Sys2Proof.Machine.execLdaRR rd rs s
  | .cvla rd rs => Sys2Proof.Machine.execCvla rd rs s
  | .cvab rd rs => Sys2Proof.Machine.execCvab rd rs s
  | .cvls rd rs => Sys2Proof.Machine.execCvls rd rs s
  | .cvas rd rs => Sys2Proof.Machine.execCvas rd rs s
  | .cval rd rs => Sys2Proof.Machine.execCval rd rs s
  | .andRR rd rs => Sys2Proof.Machine.execAndRR rd rs s
  | .andC rd rs => Sys2Proof.Machine.execAndC rd rs s
  | .andNC rd rs => Sys2Proof.Machine.execAndNC rd rs s
  | .andImm rd sign7 => Sys2Proof.Machine.execAndImm rd sign7 s
  | .orRR rd rs => Sys2Proof.Machine.execOrRR rd rs s
  | .orC rd rs => Sys2Proof.Machine.execOrC rd rs s
  | .orNC rd rs => Sys2Proof.Machine.execOrNC rd rs s
  | .orImm rd sign7 => Sys2Proof.Machine.execOrImm rd sign7 s
  | .xorRR rd rs => Sys2Proof.Machine.execXorRR rd rs s
  | .xorC rd rs => Sys2Proof.Machine.execXorC rd rs s
  | .xorNC rd rs => Sys2Proof.Machine.execXorNC rd rs s
  | .xorImm rd sign7 => Sys2Proof.Machine.execXorImm rd sign7 s
  | .notRR rd rs => Sys2Proof.Machine.execNotRR rd rs s
  | .notC rd rs => Sys2Proof.Machine.execNotC rd rs s
  | .notNC rd rs => Sys2Proof.Machine.execNotNC rd rs s
  | .notImm rd sign7 => Sys2Proof.Machine.execNotImm rd sign7 s
  | .srRR rd rs => Sys2Proof.Machine.execSrRR rd rs s
  | .srImm rd imm7 => Sys2Proof.Machine.execSrImm rd imm7 s
  | .saRR rd rs => Sys2Proof.Machine.execSaRR rd rs s
  | .saImm rd imm7 => Sys2Proof.Machine.execSaImm rd imm7 s
  | .slRR rd rs => Sys2Proof.Machine.execSlRR rd rs s
  | .slImm rd imm7 => Sys2Proof.Machine.execSlImm rd imm7 s
  | .swap rd rs => Sys2Proof.Machine.execSwap rd rs s
  | .addRR rd rs => Sys2Proof.Machine.execAddRR rd rs s
  | .addC rd rs => Sys2Proof.Machine.execAddC rd rs s
  | .addNC rd rs => Sys2Proof.Machine.execAddNC rd rs s
  | .addImm rd imm7 => Sys2Proof.Machine.execAddImm rd imm7 s
  | .adcRR rd rs => Sys2Proof.Machine.execAdcRR rd rs s
  | .adcC rd rs => Sys2Proof.Machine.execAdcC rd rs s
  | .adcNC rd rs => Sys2Proof.Machine.execAdcNC rd rs s
  | .adcImm rd imm7 => Sys2Proof.Machine.execAdcImm rd imm7 s
  | .subRR rd rs => Sys2Proof.Machine.execSubRR rd rs s
  | .subC rd rs => Sys2Proof.Machine.execSubC rd rs s
  | .subNC rd rs => Sys2Proof.Machine.execSubNC rd rs s
  | .subImm rd imm7 => Sys2Proof.Machine.execSubImm rd imm7 s
  | .sbcRR rd rs => Sys2Proof.Machine.execSbcRR rd rs s
  | .sbcC rd rs => Sys2Proof.Machine.execSbcC rd rs s
  | .sbcNC rd rs => Sys2Proof.Machine.execSbcNC rd rs s
  | .sbcImm rd imm7 => Sys2Proof.Machine.execSbcImm rd imm7 s
  | .cmpRR rd rs => Sys2Proof.Machine.execCmpRR rd rs s
  | .cmpC rd rs => Sys2Proof.Machine.execCmpC rd rs s
  | .cmpNC rd rs => Sys2Proof.Machine.execCmpNC rd rs s
  | .cmpImm rd sign7 => Sys2Proof.Machine.execCmpImm rd sign7 s
  | .cmcRR rd rs => Sys2Proof.Machine.execCmcRR rd rs s
  | .cmcC rd rs => Sys2Proof.Machine.execCmcC rd rs s
  | .cmcNC rd rs => Sys2Proof.Machine.execCmcNC rd rs s
  | .cmcImm rd sign7 => Sys2Proof.Machine.execCmcImm rd sign7 s
  | .addaRR rd rs => Sys2Proof.Machine.execAddaRR rd rs s
  | .addaC rd rs => Sys2Proof.Machine.execAddaC rd rs s
  | .addaNC rd rs => Sys2Proof.Machine.execAddaNC rd rs s
  | .addaImm rd imm7 => Sys2Proof.Machine.execAddaImm rd imm7 s
  | .addaSpRs rs => Sys2Proof.Machine.execAddaSpRs rs s
  | .addaSpImm imm7 => Sys2Proof.Machine.execAddaSpImm imm7 s
  | .subaRR rd rs => Sys2Proof.Machine.execSubaRR rd rs s
  | .subaC rd rs => Sys2Proof.Machine.execSubaC rd rs s
  | .subaNC rd rs => Sys2Proof.Machine.execSubaNC rd rs s
  | .subaImm rd imm7 => Sys2Proof.Machine.execSubaImm rd imm7 s
  | .subaSpRs rs => Sys2Proof.Machine.execSubaSpRs rs s
  | .subaSpImm imm7 => Sys2Proof.Machine.execSubaSpImm imm7 s
  | .cmpaRR rd rs => Sys2Proof.Machine.execCmpaRR rd rs s
  | .cmpaC rd rs => Sys2Proof.Machine.execCmpaC rd rs s
  | .cmpaNC rd rs => Sys2Proof.Machine.execCmpaNC rd rs s
  | .cmpaImm rd imm7 => Sys2Proof.Machine.execCmpaImm rd imm7 s
  | .ldcwRR rd rs => Sys2Proof.Machine.execLdcwRR rd rs s
  | .ldcwImm rd imm7 => Sys2Proof.Machine.execLdcwImm rd imm7 s
  | .ldcaRR rd rs => Sys2Proof.Machine.execLdcaRR rd rs s
  | .ldcaImm rd imm7 => Sys2Proof.Machine.execLdcaImm rd imm7 s
  | .ldcfRR rd rs => Sys2Proof.Machine.execLdcfRR rd rs s
  | .ldcfImm rd imm7 => Sys2Proof.Machine.execLdcfImm rd imm7 s
  | .ldImm rd sign7 => Sys2Proof.Machine.execLdImm rd sign7 s
  | .ldaImm rd imm7 => Sys2Proof.Machine.execLdaImm rd imm7 s
  | .ldaSpImm imm7 => Sys2Proof.Machine.execLdaSpImm imm7 s
  | .ldaRdSp rd => Sys2Proof.Machine.execLdaRdSp rd s
  | .ldaRdPc rd => Sys2Proof.Machine.execLdaRdPc rd s
  | .ldaSpRs rs => Sys2Proof.Machine.execLdaSpRs rs s
  | .ldaLoadSp rd => Sys2Proof.Machine.execLdaLoadSp rd s
  | .ldaLoadSpPostInc rd => Sys2Proof.Machine.execLdaLoadSpPostInc rd s
  | .ldaLoadSpPostDec rd => Sys2Proof.Machine.execLdaLoadSpPostDec rd s
  | .ldaLoadSpPreDec rd => Sys2Proof.Machine.execLdaLoadSpPreDec rd s
  | .ldaStoreSp rs => Sys2Proof.Machine.execLdaStoreSp rs s
  | .ldaStoreSpPostInc rs => Sys2Proof.Machine.execLdaStoreSpPostInc rs s
  | .ldaStoreSpPostDec rs => Sys2Proof.Machine.execLdaStoreSpPostDec rs s
  | .ldaStoreSpPreDec rs => Sys2Proof.Machine.execLdaStoreSpPreDec rs s
  | .ldbLoadAbs rd imm7 => Sys2Proof.Machine.execLdbLoadAbs rd imm7 s
  | .ldbLoadSpDisp rd imm7 => Sys2Proof.Machine.execLdbLoadSpDisp rd imm7 s
  | .ldbStoreAbs imm7 rs => Sys2Proof.Machine.execLdbStoreAbs imm7 rs s
  | .ldbStoreSpDisp imm7 rs => Sys2Proof.Machine.execLdbStoreSpDisp imm7 rs s
  | .ldubLoadAbs rd imm7 => Sys2Proof.Machine.execLdubLoadAbs rd imm7 s
  | .ldubLoadSpDisp rd imm7 => Sys2Proof.Machine.execLdubLoadSpDisp rd imm7 s
  | .ldLoadAbs rd imm7 => Sys2Proof.Machine.execLdLoadAbs rd imm7 s
  | .ldLoadSpDisp rd imm7 => Sys2Proof.Machine.execLdLoadSpDisp rd imm7 s
  | .ldStoreAbs imm7 rs => Sys2Proof.Machine.execLdStoreAbs imm7 rs s
  | .ldStoreSpDisp imm7 rs => Sys2Proof.Machine.execLdStoreSpDisp imm7 rs s
  | .ldaLoadAbs rd imm7 => Sys2Proof.Machine.execLdaLoadAbs rd imm7 s
  | .ldaLoadSpDisp rd imm7 => Sys2Proof.Machine.execLdaLoadSpDisp rd imm7 s
  | .ldaStoreAbs imm7 rs => Sys2Proof.Machine.execLdaStoreAbs imm7 rs s
  | .ldaStoreSpDisp imm7 rs => Sys2Proof.Machine.execLdaStoreSpDisp imm7 rs s
  | .ext imm13 => Sys2Proof.Machine.execExt imm13 s
  | .nop => Sys2Proof.Machine.execNop s
  | .halt => Sys2Proof.Machine.execHalt s
  | .slp => Sys2Proof.Machine.execSlp s
  | .ei => Sys2Proof.Machine.execEi s
  | .di => Sys2Proof.Machine.execDi s
  | .jprImm sign10 => Sys2Proof.Machine.execJprImm sign10 s
  | .jprDelayedImm sign10 => Sys2Proof.Machine.execJprDelayedImm sign10 s
  | .jprReg rb => Sys2Proof.Machine.execJprReg rb s
  | .jprDelayedReg rb => Sys2Proof.Machine.execJprDelayedReg rb s
  | .jpaImm imm7 => Sys2Proof.Machine.execJpaImm imm7 s
  | .jpaDelayedImm imm7 => Sys2Proof.Machine.execJpaDelayedImm imm7 s
  | .jpaReg rb => Sys2Proof.Machine.execJpaReg rb s
  | .jpaDelayedReg rb => Sys2Proof.Machine.execJpaDelayedReg rb s
  | .jrgt sign7 => Sys2Proof.Machine.execJrgt sign7 s
  | .jrgtDelayed sign7 => Sys2Proof.Machine.execJrgtDelayed sign7 s
  | .jrge sign7 => Sys2Proof.Machine.execJrge sign7 s
  | .jrgeDelayed sign7 => Sys2Proof.Machine.execJrgeDelayed sign7 s
  | .jrlt sign7 => Sys2Proof.Machine.execJrlt sign7 s
  | .jrltDelayed sign7 => Sys2Proof.Machine.execJrltDelayed sign7 s
  | .jrle sign7 => Sys2Proof.Machine.execJrle sign7 s
  | .jrleDelayed sign7 => Sys2Proof.Machine.execJrleDelayed sign7 s
  | .jrugt sign7 => Sys2Proof.Machine.execJrugt sign7 s
  | .jrugtDelayed sign7 => Sys2Proof.Machine.execJrugtDelayed sign7 s
  | .jruge sign7 => Sys2Proof.Machine.execJruge sign7 s
  | .jrugeDelayed sign7 => Sys2Proof.Machine.execJrugeDelayed sign7 s
  | .jrult sign7 => Sys2Proof.Machine.execJrult sign7 s
  | .jrultDelayed sign7 => Sys2Proof.Machine.execJrultDelayed sign7 s
  | .jrule sign7 => Sys2Proof.Machine.execJrule sign7 s
  | .jruleDelayed sign7 => Sys2Proof.Machine.execJruleDelayed sign7 s
  | .jreq sign7 => Sys2Proof.Machine.execJreq sign7 s
  | .jreqDelayed sign7 => Sys2Proof.Machine.execJreqDelayed sign7 s
  | .jrne sign7 => Sys2Proof.Machine.execJrne sign7 s
  | .jrneDelayed sign7 => Sys2Proof.Machine.execJrneDelayed sign7 s
  | .callImm sign10 => Sys2Proof.Machine.execCallImm sign10 s
  | .callDelayedImm sign10 => Sys2Proof.Machine.execCallDelayedImm sign10 s
  | .callReg rb => Sys2Proof.Machine.execCallReg rb s
  | .callDelayedReg rb => Sys2Proof.Machine.execCallDelayedReg rb s
  | .callaImm imm7 => Sys2Proof.Machine.execCallaImm imm7 s
  | .callaDelayedImm imm7 => Sys2Proof.Machine.execCallaDelayedImm imm7 s
  | .callaReg rb => Sys2Proof.Machine.execCallaReg rb s
  | .callaDelayedReg rb => Sys2Proof.Machine.execCallaDelayedReg rb s
  | .ret => Sys2Proof.Machine.execRet s
  | .retDelayed => Sys2Proof.Machine.execRetDelayed s
  | .reti => Sys2Proof.Machine.execReti s
  | .retiDelayed => Sys2Proof.Machine.execRetiDelayed s
  | .intImm vec => Sys2Proof.Machine.execIntImm vec s
  | .intlImm vec level => Sys2Proof.Machine.execIntlImm vec level s
  | .brk => Sys2Proof.Machine.execBrk s
  | .retd => Sys2Proof.Machine.execRetd s

end Sys2Proof.Machine
end

