-- ==== Sys2Proof/Decode.lean ====
section
/-!
DEFINITION. The decoder and the encoder of the 16-bit instruction codes (spec 30_encoding.md,
R90 to R112; the rows of spec/opcode_table.json). A code is cut once into four fields, bits 15:10,
9:7, 6:3 and 2:0; every format of the spec is a use of these four. Decoding is total: a code that no
format assigns is refused by name (R110), fixed-field variants included.
-/

namespace Sys2Proof

/-- The 3-bit register number of R21 and R92. -/
def Reg.bits : Reg → BitVec 3
  | .r0 => 0 | .r1 => 1 | .r2 => 2 | .r3 => 3 | .r4 => 4 | .r5 => 5 | .r6 => 6 | .r7 => 7

/-- The register a 3-bit field names (R92). -/
def Reg.ofBits (b : BitVec 3) : Reg :=
  match b.toNat with
  | 0 => .r0 | 1 => .r1 | 2 => .r2 | 3 => .r3 | 4 => .r4 | 5 => .r5 | 6 => .r6 | _ => .r7

/-- A code cut into the fields of R92: `hi` is bits 15:10, `f3` bits 9:7, `op4` bits 6:3 and `lo3`
bits 2:0. -/
structure Fields where
  hi  : BitVec 6
  f3  : BitVec 3
  op4 : BitVec 4
  lo3 : BitVec 3
  deriving DecidableEq, Repr

/-- Cuts a code into its fields. -/
def splitWord (w : BitVec 16) : Fields :=
  ⟨w.extractLsb' 10 6, w.extractLsb' 7 3, w.extractLsb' 3 4, w.extractLsb' 0 3⟩

/-- Puts the fields of a code together again. -/
def packWord (hi : BitVec 6) (f3 : BitVec 3) (op4 : BitVec 4) (lo3 : BitVec 3) : BitVec 16 :=
  hi ++ f3 ++ op4 ++ lo3

/-- The register named by bits 9:7 (`rd`, or `rs` of a store; R92). -/
def Fields.regHi (f : Fields) : Reg := Reg.ofBits f.f3

/-- The register named by bits 2:0 (`rs` or `rb`; R92). -/
def Fields.regLo (f : Fields) : Reg := Reg.ofBits f.lo3

/-- Bits 6:0 (`imm7`, `sign7`; R92). -/
def Fields.imm7 (f : Fields) : BitVec 7 := f.op4 ++ f.lo3

/-- Bits 9:0 (`sign10`; R92). -/
def Fields.imm10 (f : Fields) : BitVec 10 := f.f3 ++ f.op4 ++ f.lo3

/-- Bits 12:0 (`imm13`; R92, R100). -/
def Fields.imm13 (f : Fields) : BitVec 13 := f.hi.extractLsb' 0 3 ++ f.f3 ++ f.op4 ++ f.lo3

/-- Bits 6:2 (`imm5` of `int` and `intl`; R92, R102). -/
def Fields.imm5 (f : Fields) : BitVec 5 := f.op4 ++ f.lo3.extractLsb' 2 1

/-- Bits 1:0, the selector of format INT (R102). -/
def Fields.sel2 (f : Fields) : BitVec 2 := f.lo3.extractLsb' 0 2

/-- Bits 15:7 = 000000 000 of formats SYS and BRR (R93, R94). -/
def decodeSys000 (f : Fields) : Option Instr :=
  match f.op4.toNat with
  | 0b0000 => if f.lo3 = 0b000 then some (.nop) else none
  | 0b0001 => if f.lo3 = 0b000 then some (.halt) else none
  | 0b0010 => if f.lo3 = 0b000 then some (.slp) else none
  | 0b0100 => if f.lo3 = 0b000 then some (.ei) else none
  | 0b1000 => if f.lo3 = 0b000 then some (.di) else none
  | _ => none

/-- Bits 15:7 = 000000 010 of formats SYS and BRR (R93, R94). -/
def decodeSys010 (f : Fields) : Option Instr :=
  match f.op4.toNat with
  | 0b0000 => some (.callReg f.regLo)
  | 0b0001 => some (.callaReg f.regLo)
  | 0b0100 => if f.lo3 = 0b000 then some (.ret) else none
  | 0b0101 => if f.lo3 = 0b000 then some (.reti) else none
  | 0b1000 => some (.jprReg f.regLo)
  | 0b1001 => some (.jpaReg f.regLo)
  | 0b1100 => if f.lo3 = 0b000 then some (.brk) else none
  | 0b1101 => if f.lo3 = 0b000 then some (.retd) else none
  | _ => none

/-- Bits 15:7 = 000000 011 of formats SYS and BRR (R93, R94). -/
def decodeSys011 (f : Fields) : Option Instr :=
  match f.op4.toNat with
  | 0b0000 => some (.callDelayedReg f.regLo)
  | 0b0001 => some (.callaDelayedReg f.regLo)
  | 0b0100 => if f.lo3 = 0b000 then some (.retDelayed) else none
  | 0b0101 => if f.lo3 = 0b000 then some (.retiDelayed) else none
  | 0b1000 => some (.jprDelayedReg f.regLo)
  | 0b1001 => some (.jpaDelayedReg f.regLo)
  | _ => none

/-- Class 0000 00: system control, branches through a register and `jpa imm7` (R93, R94, R95). -/
def decodeClass000000 (f : Fields) : Option Instr :=
  match f.f3.toNat with
  | 0b000 => decodeSys000 f
  | 0b010 => decodeSys010 f
  | 0b011 => decodeSys011 f
  | 0b110 => some (.jpaImm f.imm7)
  | 0b111 => some (.jpaDelayedImm f.imm7)
  | _ => none

/-- Class 0000 01: `calla imm7`, `jrgt`, `jrge` (R95). -/
def decodeClass000001 (f : Fields) : Option Instr :=
  match f.f3.toNat with
  | 0b010 => some (.callaImm f.imm7)
  | 0b011 => some (.callaDelayedImm f.imm7)
  | 0b100 => some (.jrgt f.imm7)
  | 0b101 => some (.jrgtDelayed f.imm7)
  | 0b110 => some (.jrge f.imm7)
  | 0b111 => some (.jrgeDelayed f.imm7)
  | _ => none

/-- Class 0000 10: `jrlt`, `jrle`, `jrugt`, `jruge` (R95). -/
def decodeClass000010 (f : Fields) : Option Instr :=
  match f.f3.toNat with
  | 0b000 => some (.jrlt f.imm7)
  | 0b001 => some (.jrltDelayed f.imm7)
  | 0b010 => some (.jrle f.imm7)
  | 0b011 => some (.jrleDelayed f.imm7)
  | 0b100 => some (.jrugt f.imm7)
  | 0b101 => some (.jrugtDelayed f.imm7)
  | 0b110 => some (.jruge f.imm7)
  | 0b111 => some (.jrugeDelayed f.imm7)
  | _ => none

/-- Class 0000 11: `jrult`, `jrule`, `jreq`, `jrne` (R95). -/
def decodeClass000011 (f : Fields) : Option Instr :=
  match f.f3.toNat with
  | 0b000 => some (.jrult f.imm7)
  | 0b001 => some (.jrultDelayed f.imm7)
  | 0b010 => some (.jrule f.imm7)
  | 0b011 => some (.jruleDelayed f.imm7)
  | 0b100 => some (.jreq f.imm7)
  | 0b101 => some (.jreqDelayed f.imm7)
  | 0b110 => some (.jrne f.imm7)
  | 0b111 => some (.jrneDelayed f.imm7)
  | _ => none

/-- Class 0010 00: format RM_LOAD (R97). -/
def decodeClass001000 (f : Fields) : Option Instr :=
  match f.op4.toNat with
  | 0b0000 => some (.ldbLoadInd f.regHi f.regLo)
  | 0b0001 => some (.ldubLoadInd f.regHi f.regLo)
  | 0b0010 => some (.ldLoadInd f.regHi f.regLo)
  | 0b0011 => some (.ldaLoadInd f.regHi f.regLo)
  | 0b0100 => some (.ldbLoadPostInc f.regHi f.regLo)
  | 0b0101 => some (.ldubLoadPostInc f.regHi f.regLo)
  | 0b0110 => some (.ldLoadPostInc f.regHi f.regLo)
  | 0b0111 => some (.ldaLoadPostInc f.regHi f.regLo)
  | 0b1000 => some (.ldbLoadPreDec f.regHi f.regLo)
  | 0b1001 => some (.ldubLoadPreDec f.regHi f.regLo)
  | 0b1010 => some (.ldLoadPreDec f.regHi f.regLo)
  | 0b1011 => some (.ldaLoadPreDec f.regHi f.regLo)
  | 0b1100 => some (.ldbLoadPostDec f.regHi f.regLo)
  | 0b1101 => some (.ldubLoadPostDec f.regHi f.regLo)
  | 0b1110 => some (.ldLoadPostDec f.regHi f.regLo)
  | _ => some (.ldaLoadPostDec f.regHi f.regLo)

/-- Class 0010 01: format RM_STORE (R97). -/
def decodeClass001001 (f : Fields) : Option Instr :=
  match f.op4.toNat with
  | 0b0000 => some (.ldbStoreInd f.regLo f.regHi)
  | 0b0010 => some (.ldStoreInd f.regLo f.regHi)
  | 0b0011 => some (.ldaStoreInd f.regLo f.regHi)
  | 0b0100 => some (.ldbStorePostInc f.regLo f.regHi)
  | 0b0110 => some (.ldStorePostInc f.regLo f.regHi)
  | 0b0111 => some (.ldaStorePostInc f.regLo f.regHi)
  | 0b1000 => some (.ldbStorePreDec f.regLo f.regHi)
  | 0b1010 => some (.ldStorePreDec f.regLo f.regHi)
  | 0b1011 => some (.ldaStorePreDec f.regLo f.regHi)
  | 0b1100 => some (.ldbStorePostDec f.regLo f.regHi)
  | 0b1110 => some (.ldStorePostDec f.regLo f.regHi)
  | 0b1111 => some (.ldaStorePostDec f.regLo f.regHi)
  | _ => none

/-- Class 0010 10: format RR, transfers and conversions (R98). -/
def decodeClass001010 (f : Fields) : Option Instr :=
  match f.op4.toNat with
  | 0b0000 => some (.ldbRR f.regHi f.regLo)
  | 0b0001 => some (.ldubRR f.regHi f.regLo)
  | 0b0010 => some (.ldRR f.regHi f.regLo)
  | 0b0011 => some (.ldaRR f.regHi f.regLo)
  | 0b0110 => some (.cvla f.regHi f.regLo)
  | 0b0111 => some (.cvab f.regHi f.regLo)
  | 0b1010 => some (.cvls f.regHi f.regLo)
  | 0b1011 => some (.cvas f.regHi f.regLo)
  | 0b1111 => some (.cval f.regHi f.regLo)
  | _ => none

/-- Class 0010 11: format RR, logic, shifts and `swap` (R98). -/
def decodeClass001011 (f : Fields) : Option Instr :=
  match f.op4.toNat with
  | 0b0000 => some (.andC f.regHi f.regLo)
  | 0b0001 => some (.orC f.regHi f.regLo)
  | 0b0010 => some (.xorC f.regHi f.regLo)
  | 0b0011 => some (.notC f.regHi f.regLo)
  | 0b0100 => some (.andNC f.regHi f.regLo)
  | 0b0101 => some (.orNC f.regHi f.regLo)
  | 0b0110 => some (.xorNC f.regHi f.regLo)
  | 0b0111 => some (.notNC f.regHi f.regLo)
  | 0b1000 => some (.andRR f.regHi f.regLo)
  | 0b1001 => some (.orRR f.regHi f.regLo)
  | 0b1010 => some (.xorRR f.regHi f.regLo)
  | 0b1011 => some (.notRR f.regHi f.regLo)
  | 0b1100 => some (.srRR f.regHi f.regLo)
  | 0b1101 => some (.saRR f.regHi f.regLo)
  | 0b1110 => some (.slRR f.regHi f.regLo)
  | _ => some (.swap f.regHi f.regLo)

/-- Class 0011 00: formats RR and SP_R, `add.a` and `sub.a` (R98, R99). -/
def decodeClass001100 (f : Fields) : Option Instr :=
  match f.op4.toNat with
  | 0b0000 => some (.addaC f.regHi f.regLo)
  | 0b0001 => if f.f3 = 0b000 then some (.addaSpRs f.regLo) else none
  | 0b0010 => some (.subaC f.regHi f.regLo)
  | 0b0011 => if f.f3 = 0b000 then some (.subaSpRs f.regLo) else none
  | 0b0100 => some (.addaNC f.regHi f.regLo)
  | 0b0110 => some (.subaNC f.regHi f.regLo)
  | 0b1000 => some (.addaRR f.regHi f.regLo)
  | 0b1010 => some (.subaRR f.regHi f.regLo)
  | _ => none

/-- Class 0011 01: format RR, `cmp.a` and the coprocessor (R98). -/
def decodeClass001101 (f : Fields) : Option Instr :=
  match f.op4.toNat with
  | 0b0000 => some (.cmpaC f.regHi f.regLo)
  | 0b0001 => some (.ldcfRR f.regHi f.regLo)
  | 0b0010 => some (.ldcwRR f.regHi f.regLo)
  | 0b0011 => some (.ldcaRR f.regHi f.regLo)
  | 0b0100 => some (.cmpaNC f.regHi f.regLo)
  | 0b1000 => some (.cmpaRR f.regHi f.regLo)
  | _ => none

/-- Class 0011 10: format RR, 16-bit arithmetic (R98). -/
def decodeClass001110 (f : Fields) : Option Instr :=
  match f.op4.toNat with
  | 0b0000 => some (.addC f.regHi f.regLo)
  | 0b0001 => some (.adcC f.regHi f.regLo)
  | 0b0010 => some (.subC f.regHi f.regLo)
  | 0b0011 => some (.sbcC f.regHi f.regLo)
  | 0b0100 => some (.addNC f.regHi f.regLo)
  | 0b0101 => some (.adcNC f.regHi f.regLo)
  | 0b0110 => some (.subNC f.regHi f.regLo)
  | 0b0111 => some (.sbcNC f.regHi f.regLo)
  | 0b1000 => some (.addRR f.regHi f.regLo)
  | 0b1001 => some (.adcRR f.regHi f.regLo)
  | 0b1010 => some (.subRR f.regHi f.regLo)
  | 0b1011 => some (.sbcRR f.regHi f.regLo)
  | _ => none

/-- Class 0011 11: formats RR and SPPC, compare and the `%sp`, `%pc` forms (R98, R99). -/
def decodeClass001111 (f : Fields) : Option Instr :=
  match f.op4.toNat with
  | 0b0000 => some (.cmpC f.regHi f.regLo)
  | 0b0001 => some (.cmcC f.regHi f.regLo)
  | 0b0010 => if f.lo3 = 0b000 then some (.ldaRdSp f.regHi) else none
  | 0b0011 => if f.lo3 = 0b000 then some (.ldaLoadSp f.regHi) else if f.lo3 = 0b100 then some (.ldaStoreSp f.regHi) else none
  | 0b0100 => some (.cmpNC f.regHi f.regLo)
  | 0b0101 => some (.cmcNC f.regHi f.regLo)
  | 0b0110 => if f.lo3 = 0b000 then some (.ldaRdPc f.regHi) else none
  | 0b0111 => if f.lo3 = 0b000 then some (.ldaLoadSpPostInc f.regHi) else if f.lo3 = 0b100 then some (.ldaStoreSpPostInc f.regHi) else none
  | 0b1000 => some (.cmpRR f.regHi f.regLo)
  | 0b1001 => some (.cmcRR f.regHi f.regLo)
  | 0b1010 => if f.lo3 = 0b000 then some (.ldaSpRs f.regHi) else none
  | 0b1011 => if f.lo3 = 0b000 then some (.ldaLoadSpPreDec f.regHi) else if f.lo3 = 0b100 then some (.ldaStoreSpPreDec f.regHi) else none
  | 0b1111 => if f.lo3 = 0b000 then some (.ldaLoadSpPostDec f.regHi) else if f.lo3 = 0b100 then some (.ldaStoreSpPostDec f.regHi) else none
  | _ => none

/-- Class 0111 01: format INT (R102). -/
def decodeClass011101 (f : Fields) : Option Instr :=
  match f.sel2.toNat with
  | 0b01 => if f.f3 = 0b000 then some (.intImm f.imm5) else none
  | 0b11 => some (.intlImm f.imm5 f.f3)
  | _ => none

/-- The instruction a code stands for, by its class in bits 15:10 (R91); classes 010xxx are `ext`
(R100). -/
def decodeFields (f : Fields) : Option Instr :=
  match f.hi.toNat with
  | 0b000000 => decodeClass000000 f
  | 0b000001 => decodeClass000001 f
  | 0b000010 => decodeClass000010 f
  | 0b000011 => decodeClass000011 f
  | 0b000100 => some (.jprImm f.imm10)
  | 0b000101 => some (.jprDelayedImm f.imm10)
  | 0b000110 => some (.callImm f.imm10)
  | 0b000111 => some (.callDelayedImm f.imm10)
  | 0b001000 => decodeClass001000 f
  | 0b001001 => decodeClass001001 f
  | 0b001010 => decodeClass001010 f
  | 0b001011 => decodeClass001011 f
  | 0b001100 => decodeClass001100 f
  | 0b001101 => decodeClass001101 f
  | 0b001110 => decodeClass001110 f
  | 0b001111 => decodeClass001111 f
  | 0b010000 | 0b010001 | 0b010010 | 0b010011 | 0b010100 | 0b010101 | 0b010110 | 0b010111 =>
    some (.ext f.imm13)
  | 0b011000 => some (.addaImm f.regHi f.imm7)
  | 0b011001 => if f.f3 = 0b000 then some (.addaSpImm f.imm7) else none
  | 0b011010 => some (.subaImm f.regHi f.imm7)
  | 0b011011 => if f.f3 = 0b000 then some (.subaSpImm f.imm7) else none
  | 0b011100 => some (.cmpaImm f.regHi f.imm7)
  | 0b011101 => decodeClass011101 f
  | 0b011110 => some (.ldcwImm f.regHi f.imm7)
  | 0b011111 => some (.ldcaImm f.regHi f.imm7)
  | 0b100000 => some (.addImm f.regHi f.imm7)
  | 0b100001 => some (.adcImm f.regHi f.imm7)
  | 0b100010 => some (.subImm f.regHi f.imm7)
  | 0b100011 => some (.sbcImm f.regHi f.imm7)
  | 0b100100 => some (.cmpImm f.regHi f.imm7)
  | 0b100101 => some (.cmcImm f.regHi f.imm7)
  | 0b100110 => some (.ldImm f.regHi f.imm7)
  | 0b100111 => some (.ldaImm f.regHi f.imm7)
  | 0b101000 => some (.andImm f.regHi f.imm7)
  | 0b101001 => some (.orImm f.regHi f.imm7)
  | 0b101010 => some (.xorImm f.regHi f.imm7)
  | 0b101011 => some (.notImm f.regHi f.imm7)
  | 0b101100 => some (.srImm f.regHi f.imm7)
  | 0b101101 => some (.saImm f.regHi f.imm7)
  | 0b101110 => some (.slImm f.regHi f.imm7)
  | 0b101111 => if f.f3 = 0b000 then some (.ldaSpImm f.imm7) else none
  | 0b110000 => some (.ldbLoadAbs f.regHi f.imm7)
  | 0b110001 => some (.ldubLoadAbs f.regHi f.imm7)
  | 0b110010 => some (.ldLoadAbs f.regHi f.imm7)
  | 0b110011 => some (.ldaLoadAbs f.regHi f.imm7)
  | 0b110100 => some (.ldbStoreAbs f.imm7 f.regHi)
  | 0b110101 => some (.ldcfImm f.regHi f.imm7)
  | 0b110110 => some (.ldStoreAbs f.imm7 f.regHi)
  | 0b110111 => some (.ldaStoreAbs f.imm7 f.regHi)
  | 0b111000 => some (.ldbLoadSpDisp f.regHi f.imm7)
  | 0b111001 => some (.ldubLoadSpDisp f.regHi f.imm7)
  | 0b111010 => some (.ldLoadSpDisp f.regHi f.imm7)
  | 0b111011 => some (.ldaLoadSpDisp f.regHi f.imm7)
  | 0b111100 => some (.ldbStoreSpDisp f.imm7 f.regHi)
  | 0b111110 => some (.ldStoreSpDisp f.imm7 f.regHi)
  | 0b111111 => some (.ldaStoreSpDisp f.imm7 f.regHi)
  | _ => none

/-- A code of format RI7, SP_I7 or BR7: class, bits 9:7 and a 7-bit immediate (R95, R101). -/
def packImm7 (hi : BitVec 6) (f3 : BitVec 3) (v : BitVec 7) : BitVec 16 :=
  packWord hi f3 (v.extractLsb' 3 4) (v.extractLsb' 0 3)

/-- A code of format BR10: class and a 10-bit immediate (R96). -/
def packImm10 (hi : BitVec 6) (v : BitVec 10) : BitVec 16 :=
  packWord hi (v.extractLsb' 7 3) (v.extractLsb' 3 4) (v.extractLsb' 0 3)

/-- A code of format EXT: bits 15:13 = 010 and a 13-bit immediate (R100). -/
def packExt (v : BitVec 13) : BitVec 16 :=
  packWord (0b010#3 ++ v.extractLsb' 10 3) (v.extractLsb' 7 3) (v.extractLsb' 3 4) (v.extractLsb' 0 3)

/-- A code of format INT: bits 9:7, the vector number and the selector (R102). -/
def packInt (f3 : BitVec 3) (v : BitVec 5) (sel : BitVec 2) : BitVec 16 :=
  packWord 0b011101 f3 (v.extractLsb' 1 4) (v.extractLsb' 0 1 ++ sel)

/-- The code of an instruction, written from the encoding rows of the spec (R93 to R102). -/
def encode : Instr → BitVec 16
  | .ldbLoadInd rd rb => packWord 0b001000 rd.bits 0b0000 rb.bits
  | .ldbLoadPostInc rd rb => packWord 0b001000 rd.bits 0b0100 rb.bits
  | .ldbLoadPostDec rd rb => packWord 0b001000 rd.bits 0b1100 rb.bits
  | .ldbLoadPreDec rd rb => packWord 0b001000 rd.bits 0b1000 rb.bits
  | .ldubLoadInd rd rb => packWord 0b001000 rd.bits 0b0001 rb.bits
  | .ldubLoadPostInc rd rb => packWord 0b001000 rd.bits 0b0101 rb.bits
  | .ldubLoadPostDec rd rb => packWord 0b001000 rd.bits 0b1101 rb.bits
  | .ldubLoadPreDec rd rb => packWord 0b001000 rd.bits 0b1001 rb.bits
  | .ldLoadInd rd rb => packWord 0b001000 rd.bits 0b0010 rb.bits
  | .ldLoadPostInc rd rb => packWord 0b001000 rd.bits 0b0110 rb.bits
  | .ldLoadPostDec rd rb => packWord 0b001000 rd.bits 0b1110 rb.bits
  | .ldLoadPreDec rd rb => packWord 0b001000 rd.bits 0b1010 rb.bits
  | .ldaLoadInd rd rb => packWord 0b001000 rd.bits 0b0011 rb.bits
  | .ldaLoadPostInc rd rb => packWord 0b001000 rd.bits 0b0111 rb.bits
  | .ldaLoadPostDec rd rb => packWord 0b001000 rd.bits 0b1111 rb.bits
  | .ldaLoadPreDec rd rb => packWord 0b001000 rd.bits 0b1011 rb.bits
  | .ldbStoreInd rb rs => packWord 0b001001 rs.bits 0b0000 rb.bits
  | .ldbStorePostInc rb rs => packWord 0b001001 rs.bits 0b0100 rb.bits
  | .ldbStorePostDec rb rs => packWord 0b001001 rs.bits 0b1100 rb.bits
  | .ldbStorePreDec rb rs => packWord 0b001001 rs.bits 0b1000 rb.bits
  | .ldStoreInd rb rs => packWord 0b001001 rs.bits 0b0010 rb.bits
  | .ldStorePostInc rb rs => packWord 0b001001 rs.bits 0b0110 rb.bits
  | .ldStorePostDec rb rs => packWord 0b001001 rs.bits 0b1110 rb.bits
  | .ldStorePreDec rb rs => packWord 0b001001 rs.bits 0b1010 rb.bits
  | .ldaStoreInd rb rs => packWord 0b001001 rs.bits 0b0011 rb.bits
  | .ldaStorePostInc rb rs => packWord 0b001001 rs.bits 0b0111 rb.bits
  | .ldaStorePostDec rb rs => packWord 0b001001 rs.bits 0b1111 rb.bits
  | .ldaStorePreDec rb rs => packWord 0b001001 rs.bits 0b1011 rb.bits
  | .ldbRR rd rs => packWord 0b001010 rd.bits 0b0000 rs.bits
  | .ldubRR rd rs => packWord 0b001010 rd.bits 0b0001 rs.bits
  | .ldRR rd rs => packWord 0b001010 rd.bits 0b0010 rs.bits
  | .ldaRR rd rs => packWord 0b001010 rd.bits 0b0011 rs.bits
  | .cvla rd rs => packWord 0b001010 rd.bits 0b0110 rs.bits
  | .cvab rd rs => packWord 0b001010 rd.bits 0b0111 rs.bits
  | .cvls rd rs => packWord 0b001010 rd.bits 0b1010 rs.bits
  | .cvas rd rs => packWord 0b001010 rd.bits 0b1011 rs.bits
  | .cval rd rs => packWord 0b001010 rd.bits 0b1111 rs.bits
  | .andRR rd rs => packWord 0b001011 rd.bits 0b1000 rs.bits
  | .andC rd rs => packWord 0b001011 rd.bits 0b0000 rs.bits
  | .andNC rd rs => packWord 0b001011 rd.bits 0b0100 rs.bits
  | .andImm rd sign7 => packImm7 0b101000 rd.bits sign7
  | .orRR rd rs => packWord 0b001011 rd.bits 0b1001 rs.bits
  | .orC rd rs => packWord 0b001011 rd.bits 0b0001 rs.bits
  | .orNC rd rs => packWord 0b001011 rd.bits 0b0101 rs.bits
  | .orImm rd sign7 => packImm7 0b101001 rd.bits sign7
  | .xorRR rd rs => packWord 0b001011 rd.bits 0b1010 rs.bits
  | .xorC rd rs => packWord 0b001011 rd.bits 0b0010 rs.bits
  | .xorNC rd rs => packWord 0b001011 rd.bits 0b0110 rs.bits
  | .xorImm rd sign7 => packImm7 0b101010 rd.bits sign7
  | .notRR rd rs => packWord 0b001011 rd.bits 0b1011 rs.bits
  | .notC rd rs => packWord 0b001011 rd.bits 0b0011 rs.bits
  | .notNC rd rs => packWord 0b001011 rd.bits 0b0111 rs.bits
  | .notImm rd sign7 => packImm7 0b101011 rd.bits sign7
  | .srRR rd rs => packWord 0b001011 rd.bits 0b1100 rs.bits
  | .srImm rd imm7 => packImm7 0b101100 rd.bits imm7
  | .saRR rd rs => packWord 0b001011 rd.bits 0b1101 rs.bits
  | .saImm rd imm7 => packImm7 0b101101 rd.bits imm7
  | .slRR rd rs => packWord 0b001011 rd.bits 0b1110 rs.bits
  | .slImm rd imm7 => packImm7 0b101110 rd.bits imm7
  | .swap rd rs => packWord 0b001011 rd.bits 0b1111 rs.bits
  | .addRR rd rs => packWord 0b001110 rd.bits 0b1000 rs.bits
  | .addC rd rs => packWord 0b001110 rd.bits 0b0000 rs.bits
  | .addNC rd rs => packWord 0b001110 rd.bits 0b0100 rs.bits
  | .addImm rd imm7 => packImm7 0b100000 rd.bits imm7
  | .adcRR rd rs => packWord 0b001110 rd.bits 0b1001 rs.bits
  | .adcC rd rs => packWord 0b001110 rd.bits 0b0001 rs.bits
  | .adcNC rd rs => packWord 0b001110 rd.bits 0b0101 rs.bits
  | .adcImm rd imm7 => packImm7 0b100001 rd.bits imm7
  | .subRR rd rs => packWord 0b001110 rd.bits 0b1010 rs.bits
  | .subC rd rs => packWord 0b001110 rd.bits 0b0010 rs.bits
  | .subNC rd rs => packWord 0b001110 rd.bits 0b0110 rs.bits
  | .subImm rd imm7 => packImm7 0b100010 rd.bits imm7
  | .sbcRR rd rs => packWord 0b001110 rd.bits 0b1011 rs.bits
  | .sbcC rd rs => packWord 0b001110 rd.bits 0b0011 rs.bits
  | .sbcNC rd rs => packWord 0b001110 rd.bits 0b0111 rs.bits
  | .sbcImm rd imm7 => packImm7 0b100011 rd.bits imm7
  | .cmpRR rd rs => packWord 0b001111 rd.bits 0b1000 rs.bits
  | .cmpC rd rs => packWord 0b001111 rd.bits 0b0000 rs.bits
  | .cmpNC rd rs => packWord 0b001111 rd.bits 0b0100 rs.bits
  | .cmpImm rd sign7 => packImm7 0b100100 rd.bits sign7
  | .cmcRR rd rs => packWord 0b001111 rd.bits 0b1001 rs.bits
  | .cmcC rd rs => packWord 0b001111 rd.bits 0b0001 rs.bits
  | .cmcNC rd rs => packWord 0b001111 rd.bits 0b0101 rs.bits
  | .cmcImm rd sign7 => packImm7 0b100101 rd.bits sign7
  | .addaRR rd rs => packWord 0b001100 rd.bits 0b1000 rs.bits
  | .addaC rd rs => packWord 0b001100 rd.bits 0b0000 rs.bits
  | .addaNC rd rs => packWord 0b001100 rd.bits 0b0100 rs.bits
  | .addaImm rd imm7 => packImm7 0b011000 rd.bits imm7
  | .addaSpRs rs => packWord 0b001100 0b000 0b0001 rs.bits
  | .addaSpImm imm7 => packImm7 0b011001 0b000 imm7
  | .subaRR rd rs => packWord 0b001100 rd.bits 0b1010 rs.bits
  | .subaC rd rs => packWord 0b001100 rd.bits 0b0010 rs.bits
  | .subaNC rd rs => packWord 0b001100 rd.bits 0b0110 rs.bits
  | .subaImm rd imm7 => packImm7 0b011010 rd.bits imm7
  | .subaSpRs rs => packWord 0b001100 0b000 0b0011 rs.bits
  | .subaSpImm imm7 => packImm7 0b011011 0b000 imm7
  | .cmpaRR rd rs => packWord 0b001101 rd.bits 0b1000 rs.bits
  | .cmpaC rd rs => packWord 0b001101 rd.bits 0b0000 rs.bits
  | .cmpaNC rd rs => packWord 0b001101 rd.bits 0b0100 rs.bits
  | .cmpaImm rd imm7 => packImm7 0b011100 rd.bits imm7
  | .ldcwRR rd rs => packWord 0b001101 rd.bits 0b0010 rs.bits
  | .ldcwImm rd imm7 => packImm7 0b011110 rd.bits imm7
  | .ldcaRR rd rs => packWord 0b001101 rd.bits 0b0011 rs.bits
  | .ldcaImm rd imm7 => packImm7 0b011111 rd.bits imm7
  | .ldcfRR rd rs => packWord 0b001101 rd.bits 0b0001 rs.bits
  | .ldcfImm rd imm7 => packImm7 0b110101 rd.bits imm7
  | .ldImm rd sign7 => packImm7 0b100110 rd.bits sign7
  | .ldaImm rd imm7 => packImm7 0b100111 rd.bits imm7
  | .ldaSpImm imm7 => packImm7 0b101111 0b000 imm7
  | .ldaRdSp rd => packWord 0b001111 rd.bits 0b0010 0b000
  | .ldaRdPc rd => packWord 0b001111 rd.bits 0b0110 0b000
  | .ldaSpRs rs => packWord 0b001111 rs.bits 0b1010 0b000
  | .ldaLoadSp rd => packWord 0b001111 rd.bits 0b0011 0b000
  | .ldaLoadSpPostInc rd => packWord 0b001111 rd.bits 0b0111 0b000
  | .ldaLoadSpPostDec rd => packWord 0b001111 rd.bits 0b1111 0b000
  | .ldaLoadSpPreDec rd => packWord 0b001111 rd.bits 0b1011 0b000
  | .ldaStoreSp rs => packWord 0b001111 rs.bits 0b0011 0b100
  | .ldaStoreSpPostInc rs => packWord 0b001111 rs.bits 0b0111 0b100
  | .ldaStoreSpPostDec rs => packWord 0b001111 rs.bits 0b1111 0b100
  | .ldaStoreSpPreDec rs => packWord 0b001111 rs.bits 0b1011 0b100
  | .ldbLoadAbs rd imm7 => packImm7 0b110000 rd.bits imm7
  | .ldbLoadSpDisp rd imm7 => packImm7 0b111000 rd.bits imm7
  | .ldbStoreAbs imm7 rs => packImm7 0b110100 rs.bits imm7
  | .ldbStoreSpDisp imm7 rs => packImm7 0b111100 rs.bits imm7
  | .ldubLoadAbs rd imm7 => packImm7 0b110001 rd.bits imm7
  | .ldubLoadSpDisp rd imm7 => packImm7 0b111001 rd.bits imm7
  | .ldLoadAbs rd imm7 => packImm7 0b110010 rd.bits imm7
  | .ldLoadSpDisp rd imm7 => packImm7 0b111010 rd.bits imm7
  | .ldStoreAbs imm7 rs => packImm7 0b110110 rs.bits imm7
  | .ldStoreSpDisp imm7 rs => packImm7 0b111110 rs.bits imm7
  | .ldaLoadAbs rd imm7 => packImm7 0b110011 rd.bits imm7
  | .ldaLoadSpDisp rd imm7 => packImm7 0b111011 rd.bits imm7
  | .ldaStoreAbs imm7 rs => packImm7 0b110111 rs.bits imm7
  | .ldaStoreSpDisp imm7 rs => packImm7 0b111111 rs.bits imm7
  | .ext imm13 => packExt imm13
  | .nop => packWord 0b000000 0b000 0b0000 0b000
  | .halt => packWord 0b000000 0b000 0b0001 0b000
  | .slp => packWord 0b000000 0b000 0b0010 0b000
  | .ei => packWord 0b000000 0b000 0b0100 0b000
  | .di => packWord 0b000000 0b000 0b1000 0b000
  | .jprImm sign10 => packImm10 0b000100 sign10
  | .jprDelayedImm sign10 => packImm10 0b000101 sign10
  | .jprReg rb => packWord 0b000000 0b010 0b1000 rb.bits
  | .jprDelayedReg rb => packWord 0b000000 0b011 0b1000 rb.bits
  | .jpaImm imm7 => packImm7 0b000000 0b110 imm7
  | .jpaDelayedImm imm7 => packImm7 0b000000 0b111 imm7
  | .jpaReg rb => packWord 0b000000 0b010 0b1001 rb.bits
  | .jpaDelayedReg rb => packWord 0b000000 0b011 0b1001 rb.bits
  | .jrgt sign7 => packImm7 0b000001 0b100 sign7
  | .jrgtDelayed sign7 => packImm7 0b000001 0b101 sign7
  | .jrge sign7 => packImm7 0b000001 0b110 sign7
  | .jrgeDelayed sign7 => packImm7 0b000001 0b111 sign7
  | .jrlt sign7 => packImm7 0b000010 0b000 sign7
  | .jrltDelayed sign7 => packImm7 0b000010 0b001 sign7
  | .jrle sign7 => packImm7 0b000010 0b010 sign7
  | .jrleDelayed sign7 => packImm7 0b000010 0b011 sign7
  | .jrugt sign7 => packImm7 0b000010 0b100 sign7
  | .jrugtDelayed sign7 => packImm7 0b000010 0b101 sign7
  | .jruge sign7 => packImm7 0b000010 0b110 sign7
  | .jrugeDelayed sign7 => packImm7 0b000010 0b111 sign7
  | .jrult sign7 => packImm7 0b000011 0b000 sign7
  | .jrultDelayed sign7 => packImm7 0b000011 0b001 sign7
  | .jrule sign7 => packImm7 0b000011 0b010 sign7
  | .jruleDelayed sign7 => packImm7 0b000011 0b011 sign7
  | .jreq sign7 => packImm7 0b000011 0b100 sign7
  | .jreqDelayed sign7 => packImm7 0b000011 0b101 sign7
  | .jrne sign7 => packImm7 0b000011 0b110 sign7
  | .jrneDelayed sign7 => packImm7 0b000011 0b111 sign7
  | .callImm sign10 => packImm10 0b000110 sign10
  | .callDelayedImm sign10 => packImm10 0b000111 sign10
  | .callReg rb => packWord 0b000000 0b010 0b0000 rb.bits
  | .callDelayedReg rb => packWord 0b000000 0b011 0b0000 rb.bits
  | .callaImm imm7 => packImm7 0b000001 0b010 imm7
  | .callaDelayedImm imm7 => packImm7 0b000001 0b011 imm7
  | .callaReg rb => packWord 0b000000 0b010 0b0001 rb.bits
  | .callaDelayedReg rb => packWord 0b000000 0b011 0b0001 rb.bits
  | .ret => packWord 0b000000 0b010 0b0100 0b000
  | .retDelayed => packWord 0b000000 0b011 0b0100 0b000
  | .reti => packWord 0b000000 0b010 0b0101 0b000
  | .retiDelayed => packWord 0b000000 0b011 0b0101 0b000
  | .intImm vec => packInt 0b000 vec 0b01
  | .intlImm vec level => packInt level vec 0b11
  | .brk => packWord 0b000000 0b010 0b1100 0b000
  | .retd => packWord 0b000000 0b010 0b1101 0b000

/-- Decodes one 16-bit code (R110: `none` is an unassigned code). -/
def decodeWord (w : BitVec 16) : Option Instr := decodeFields (splitWord w)

/-- Why a byte string is not the start of an instruction. -/
inductive DecodeError where
  /-- Fewer than the two bytes every instruction has (R90). Raised by `decodeBytes` only. -/
  | truncated
  /-- No format assigns the code (R110). -/
  | unassignedOpcode
  deriving DecidableEq, Repr

/-- The 16-bit datum of two bytes as memory holds it, the low byte at the lower address (R61, R67). -/
def wordOfBytes (lo hi : Byte) : BitVec 16 := hi ++ lo

/-- Decodes the instruction at the head of a byte string and returns the rest; total on any bytes,
and the code is read little endian (R67). -/
def decodeBytes : List Byte → Except DecodeError (Instr × List Byte)
  | lo :: hi :: rest =>
    match decodeWord (wordOfBytes lo hi) with
    | some i => .ok (i, rest)
    | none => .error .unassignedOpcode
  | _ => .error .truncated

/-- The bytes of an instruction in the order memory holds them (R61, R67). -/
def encodeBytes (i : Instr) : List Byte :=
  [(encode i).extractLsb' 0 8, (encode i).extractLsb' 8 8]

/-- The two bytes of the first instruction word of a table word: bit 0 of the table is the least
significant bit of the first (and only) word, and the low byte lies at the lower address. Bits from
`nbits` up are 0. -/
def tableBytes (nbits w : Nat) : List Byte :=
  let v : BitVec 16 := BitVec.ofNat 16 (w % 2 ^ nbits)
  [v.extractLsb' 0 8, v.extractLsb' 8 8]

/-- The instruction this decoder reads from the bits `w` of a row of spec/opcode_table.json. -/
def decodeTableWord (nbits w : Nat) : Option Instr :=
  match decodeBytes (tableBytes nbits w) with
  | .ok (i, _) => some i
  | .error _ => none

end Sys2Proof
end

