-- ==== Sys2Proof/Machine/Fetch.lean ====
section
/-!
DEFINITION. Fetching a code, the delay slot and the single step (spec 60_exceptions.md R430 D and E;
46_branch.md R342, R343; 20_memory.md R67).
-/

namespace Sys2Proof.Machine

/-- The two bytes of a code as the 16-bit datum at its address, the low byte first (R67). -/
def codeAt (m : Memory) (a : Word) : BitVec 16 := wordOfBytes (m.read a.toNat) (m.read (a.toNat + 1))

/-- The code at PC (R430 D). In the core-reserved area there is only the debug firmware, and without it
the run ends (D39). -/
def fetch (s : State) : Res (BitVec 16) :=
  if Config.coreAreaBase ≤ s.pc then
    match s.debugFw with
    | some fw => .next (codeAt fw s.pc)
    | none => .refused .enteredDebugFirmware
  else bindRes (checkBytes (readable s) s.pc.toNat 2) fun _ => .next (codeAt s.mem s.pc)

/-- The instruction at PC (R110, R430 D). -/
def fetchInstr (s : State) : Res Instr :=
  bindRes (fetch s) fun code =>
  match decodeWord code with
  | some i => .next i
  | none => .fault .unassignedOpcode

/-- Which instructions may stand in a delay slot (R343). -/
def allowedInSlot : Instr → Bool
  | .ldbLoadInd _ _ => true
  | .ldbLoadPostInc _ _ => true
  | .ldbLoadPostDec _ _ => true
  | .ldbLoadPreDec _ _ => true
  | .ldubLoadInd _ _ => true
  | .ldubLoadPostInc _ _ => true
  | .ldubLoadPostDec _ _ => true
  | .ldubLoadPreDec _ _ => true
  | .ldLoadInd _ _ => true
  | .ldLoadPostInc _ _ => true
  | .ldLoadPostDec _ _ => true
  | .ldLoadPreDec _ _ => true
  | .ldaLoadInd _ _ => true
  | .ldaLoadPostInc _ _ => true
  | .ldaLoadPostDec _ _ => true
  | .ldaLoadPreDec _ _ => true
  | .ldbStoreInd _ _ => true
  | .ldbStorePostInc _ _ => true
  | .ldbStorePostDec _ _ => true
  | .ldbStorePreDec _ _ => true
  | .ldStoreInd _ _ => true
  | .ldStorePostInc _ _ => true
  | .ldStorePostDec _ _ => true
  | .ldStorePreDec _ _ => true
  | .ldaStoreInd _ _ => true
  | .ldaStorePostInc _ _ => true
  | .ldaStorePostDec _ _ => true
  | .ldaStorePreDec _ _ => true
  | .ldbRR _ _ => true
  | .ldubRR _ _ => true
  | .ldRR _ _ => true
  | .ldaRR _ _ => true
  | .cvla _ _ => true
  | .cvab _ _ => true
  | .cvls _ _ => true
  | .cvas _ _ => true
  | .cval _ _ => true
  | .andRR _ _ => true
  | .andC _ _ => true
  | .andNC _ _ => true
  | .andImm _ _ => true
  | .orRR _ _ => true
  | .orC _ _ => true
  | .orNC _ _ => true
  | .orImm _ _ => true
  | .xorRR _ _ => true
  | .xorC _ _ => true
  | .xorNC _ _ => true
  | .xorImm _ _ => true
  | .notRR _ _ => true
  | .notC _ _ => true
  | .notNC _ _ => true
  | .notImm _ _ => true
  | .srRR _ _ => true
  | .srImm _ _ => true
  | .saRR _ _ => true
  | .saImm _ _ => true
  | .slRR _ _ => true
  | .slImm _ _ => true
  | .swap _ _ => true
  | .addRR _ _ => true
  | .addC _ _ => true
  | .addNC _ _ => true
  | .addImm _ _ => true
  | .adcRR _ _ => true
  | .adcC _ _ => true
  | .adcNC _ _ => true
  | .adcImm _ _ => true
  | .subRR _ _ => true
  | .subC _ _ => true
  | .subNC _ _ => true
  | .subImm _ _ => true
  | .sbcRR _ _ => true
  | .sbcC _ _ => true
  | .sbcNC _ _ => true
  | .sbcImm _ _ => true
  | .cmpRR _ _ => true
  | .cmpC _ _ => true
  | .cmpNC _ _ => true
  | .cmpImm _ _ => true
  | .cmcRR _ _ => true
  | .cmcC _ _ => true
  | .cmcNC _ _ => true
  | .cmcImm _ _ => true
  | .addaRR _ _ => true
  | .addaC _ _ => true
  | .addaNC _ _ => true
  | .addaImm _ _ => true
  | .addaSpRs _ => true
  | .addaSpImm _ => true
  | .subaRR _ _ => true
  | .subaC _ _ => true
  | .subaNC _ _ => true
  | .subaImm _ _ => true
  | .subaSpRs _ => true
  | .subaSpImm _ => true
  | .cmpaRR _ _ => true
  | .cmpaC _ _ => true
  | .cmpaNC _ _ => true
  | .cmpaImm _ _ => true
  | .ldcwRR _ _ => true
  | .ldcwImm _ _ => true
  | .ldcaRR _ _ => true
  | .ldcaImm _ _ => true
  | .ldcfRR _ _ => true
  | .ldcfImm _ _ => true
  | .ldImm _ _ => true
  | .ldaImm _ _ => true
  | .ldaSpImm _ => true
  | .ldaRdSp _ => true
  | .ldaRdPc _ => true
  | .ldaSpRs _ => true
  | .ldaLoadSp _ => true
  | .ldaLoadSpPostInc _ => true
  | .ldaLoadSpPostDec _ => true
  | .ldaLoadSpPreDec _ => true
  | .ldaStoreSp _ => true
  | .ldaStoreSpPostInc _ => true
  | .ldaStoreSpPostDec _ => true
  | .ldaStoreSpPreDec _ => true
  | .ldbLoadAbs _ _ => true
  | .ldbLoadSpDisp _ _ => true
  | .ldbStoreAbs _ _ => true
  | .ldbStoreSpDisp _ _ => true
  | .ldubLoadAbs _ _ => true
  | .ldubLoadSpDisp _ _ => true
  | .ldLoadAbs _ _ => true
  | .ldLoadSpDisp _ _ => true
  | .ldStoreAbs _ _ => true
  | .ldStoreSpDisp _ _ => true
  | .ldaLoadAbs _ _ => true
  | .ldaLoadSpDisp _ _ => true
  | .ldaStoreAbs _ _ => true
  | .ldaStoreSpDisp _ _ => true
  | .ext _ => false
  | .nop => true
  | .halt => false
  | .slp => false
  | .ei => true
  | .di => true
  | .jprImm _ => false
  | .jprDelayedImm _ => false
  | .jprReg _ => false
  | .jprDelayedReg _ => false
  | .jpaImm _ => false
  | .jpaDelayedImm _ => false
  | .jpaReg _ => false
  | .jpaDelayedReg _ => false
  | .jrgt _ => false
  | .jrgtDelayed _ => false
  | .jrge _ => false
  | .jrgeDelayed _ => false
  | .jrlt _ => false
  | .jrltDelayed _ => false
  | .jrle _ => false
  | .jrleDelayed _ => false
  | .jrugt _ => false
  | .jrugtDelayed _ => false
  | .jruge _ => false
  | .jrugeDelayed _ => false
  | .jrult _ => false
  | .jrultDelayed _ => false
  | .jrule _ => false
  | .jruleDelayed _ => false
  | .jreq _ => false
  | .jreqDelayed _ => false
  | .jrne _ => false
  | .jrneDelayed _ => false
  | .callImm _ => false
  | .callDelayedImm _ => false
  | .callReg _ => false
  | .callDelayedReg _ => false
  | .callaImm _ => false
  | .callaDelayedImm _ => false
  | .callaReg _ => false
  | .callaDelayedReg _ => false
  | .ret => false
  | .retDelayed => false
  | .reti => false
  | .retiDelayed => false
  | .intImm _ => false
  | .intlImm _ _ => false
  | .brk => false
  | .retd => false

/-- A slot instruction runs with no pending `ext` (R343). -/
def enterSlot (s : State) : State := { s with ext := .none }

/-- After the slot instruction PC takes the remembered target (R342). -/
def leaveSlot (d : DelayPending) (s : State) : State := { s with delay := none, pc := even d.target }

/-- Single step (R430 E, R461): with SE set, an instruction that began and ended in user mode leaves a
debug request. `dm0` is DM before the instruction. -/
def singleStep (dm0 : Bool) (s : State) : State :=
  { s with dbgLatch := s.dbgLatch || (s.dcr.se && !dm0 && !s.dcr.dm) }

/-- A memory with a code stored at an address, the low byte first (R67). -/
def putCode (m : Memory) (a : Word) (lo hi : Byte) : Memory := (m.write a.toNat lo).write (a.toNat + 1) hi

/-- The state with a code stored where the next fetch reads it, which in the core-reserved area is the
debug firmware; nothing else changes. -/
def storeCode (s : State) (bytes : List Byte) : State :=
  match bytes with
  | [lo, hi] =>
    if Config.coreAreaBase ≤ s.pc then
      { s with debugFw := some (putCode (s.debugFw.getD []) s.pc lo hi) }
    else { s with mem := putCode s.mem s.pc lo hi }
  | _ => s

end Sys2Proof.Machine
end

