-- ==== Sys2Proof/Machine/Cycle.lean ====
section
/-!
DEFINITION. One step of the machine, in the parts A to E of R430.
-/

namespace Sys2Proof.Machine

/-- R430 D: runs the decoded instruction, as a delay slot instruction if a delayed branch is pending. -/
def runInstr (i : Instr) (s : State) : Res State :=
  match s.delay with
  | none => exec i s
  | some d =>
    if allowedInSlot i then bindRes (exec i (enterSlot s)) fun t => .next (leaveSlot d t)
    else .fault .illegalDelaySlot

/-- R430 D and E: fetch, decode, run, and the single-step request. -/
def runNext (s : State) : Res State :=
  bindRes (fetchInstr s) fun i =>
  bindRes (runInstr i s) fun t => .next (singleStep s.dcr.dm t)

/-- R430 C: at most one request is accepted, and its entry is a step of its own. -/
def boundary (inp : Inputs) (s : State) : Res State :=
  match selectRequest inp s with
  | (some r, s1) => acceptRequest r s1
  | (none, s1) => runNext s1

/-- `Step` (R430): reset first, then power-down, then the boundary. -/
def cycle (s : State) : Res State :=
  let inp := inputsNow s
  let s0 := consumeInputs s
  if inp.reset then resetSequence s0
  else if awake s0.runState inp then boundary inp (applyInputs inp s0)
  else .next s0

end Sys2Proof.Machine
end

