-- ==== Sys2Proof/Machine/Step.lean ====
section
/-!
DEFINITION. The step function of the machine and the placing of an instruction where it fetches.
-/

namespace Sys2Proof.Machine

/-- One step (R430). -/
def step (s : State) : Host.Outcome State Fault Refusal := cycle s

/-- `s` with the instruction of the table word `w` stored at PC, so that the next step runs it. -/
def State.withFetchWord (s : State) (nbits w : Nat) : State := storeCode s (tableBytes nbits w)

end Sys2Proof.Machine
end

