-- ==== Sys2Proof/Safety.lean ====
section
/-!
DEFINITION. The terms statements about the machine use: the well-formed states, which every step keeps, the
frames that say what an instruction leaves as it was, and the rules' values read as natural numbers and
integers. Where the model works on bit vectors a statement gives the number, so that it does not repeat
the model's own expression.
-/

namespace Sys2Proof.Machine

/-- The states the spec allows: the fixed bits of PC, SP and the break addresses, the ranges of the
hidden counters, the canonical memory, the parameters of R4, and the holds that keep an `ext` with its
target and a delayed branch with its slot. -/
structure WellFormedState (s : State) : Prop where
  /-- The memory has its canonical form (R60). -/
  memory : s.mem.wf = true
  /-- PC bit 0 is 0 (R22, R23). -/
  pcEven : even s.pc = s.pc
  /-- SP bits 1:0 are 0 (R24). -/
  spAligned : align4 s.sp = s.sp
  /-- IBAR0 bit 0 is 0 (R38). -/
  ibar0Even : even s.ibar0 = s.ibar0
  /-- IBAR1 bit 0 is 0 (R38). -/
  ibar1Even : even s.ibar1 = s.ibar1
  /-- TTBR bits 7:0 are 0 and TTBR is at most 0xfffb00 (R34). -/
  ttbrRange : s.ttbr.extractLsb' 0 8 = 0 ∧ s.ttbr.toNat ≤ 0xfffb00
  /-- DBRAM bits 5:0 are 0 and DBRAM is at most 0xfffdc0 (R36). -/
  dbramRange : s.dbram.extractLsb' 0 6 = 0 ∧ s.dbram.toNat ≤ 0xfffdc0
  /-- `irq_hold` is 0, 1 or 2 (R44). -/
  irqHoldRange : s.irqHold ≤ 2
  /-- `ie_lag` is 0 to 3 (R45). -/
  ieLagRange : s.ieLag ≤ 3
  /-- `ie_lag` 0 means that `ie_effective` and IE agree (R45). -/
  ieSettled : s.ieLag = 0 → s.ieEffective = s.psr.ie
  /-- While an `ext` is pending every request but reset is held (R450 interval 1). -/
  extHeld : s.ext ≠ .none → 1 ≤ s.irqHold ∧ s.dbgHold = true
  /-- While a delayed branch is pending every request but reset is held (R450 interval 2). -/
  slotHeld : s.delay ≠ none → 1 ≤ s.irqHold ∧ s.dbgHold = true
  /-- A delayed branch leaves no `ext` pending (R343). -/
  slotWithoutExt : s.delay ≠ none → s.ext = .none

/-- The instruction completes: `exec` answers a next state, of which `P` holds. -/
def Completes (i : Instr) (s : State) (P : State → Prop) : Prop := ∃ t, exec i s = .next t ∧ P t

/-- The registers of the core-reserved area are as they were (R34 to R40). -/
structure KeepsCoreRegisters (s t : State) : Prop where
  ttbr : t.ttbr = s.ttbr
  dbram : t.dbram = s.dbram
  dcr : t.dcr = s.dcr
  ibar0 : t.ibar0 = s.ibar0
  ibar1 : t.ibar1 = s.ibar1
  ssr : t.ssr = s.ssr
  sdr : t.sdr = s.sdr

/-- The hidden state of acceptance and power-down is as it was (R43 to R47). -/
structure KeepsAcceptance (s t : State) : Prop where
  irqHold : t.irqHold = s.irqHold
  dbgHold : t.dbgHold = s.dbgHold
  dbgLatch : t.dbgLatch = s.dbgLatch
  ieEffective : t.ieEffective = s.ieEffective
  ieLag : t.ieLag = s.ieLag
  runState : t.runState = s.runState
  nmiArmed : t.nmiArmed = s.nmiArmed

/-- The parameters, the environment and what it was told are as they were (R4). -/
structure KeepsEnvironment (s t : State) : Prop where
  memMap : t.memMap = s.memMap
  codeRegion : t.codeRegion = s.codeRegion
  debugFw : t.debugFw = s.debugFw
  env : t.env = s.env
  accepted : t.accepted = s.accepted

/-- The general registers are as they were, those listed apart. -/
def KeepsRegs (except : List Reg) (s t : State) : Prop := ∀ r, r ∉ except → t.reg r = s.reg r

/-- Every byte of memory reads as it did. -/
def KeepsMemory (s t : State) : Prop := ∀ a, t.mem.read a = s.mem.read a

/-- Every byte of memory outside the `n` from `a` reads as it did. -/
def KeepsMemoryOutside (a n : Nat) (s t : State) : Prop :=
  ∀ x, (x < a ∨ a + n ≤ x) → t.mem.read x = s.mem.read x

/-- The general registers listed apart, no general register, core register, parameter or environment
has changed. -/
structure KeepsSystem (except : List Reg) (s t : State) : Prop where
  regs : KeepsRegs except s t
  core : KeepsCoreRegisters s t
  environment : KeepsEnvironment s t

/-- The coprocessor has received nothing and no free value has been drawn. -/
structure KeepsDraws (s t : State) : Prop where
  copro : t.copro = s.copro
  freeCount : t.freeCount = s.freeCount

/-- The hidden state is as it was, the pending `ext` apart. -/
structure KeepsHidden (s t : State) : Prop where
  acceptance : KeepsAcceptance s t
  delay : t.delay = s.delay

/-- The ordinary end: PC goes to the next code and the pending `ext` is used up. -/
def Advances (s t : State) : Prop := t.pc = s.pc + 2 ∧ t.ext = .none

/-- The end of an instruction that neither branches nor touches memory: the general registers listed
apart, everything but SP and PSR is kept and PC goes to the next code. -/
structure EndsPlainly (except : List Reg) (s t : State) : Prop where
  system : KeepsSystem except s t
  hidden : KeepsHidden s t
  draws : KeepsDraws s t
  memory : KeepsMemory s t
  advances : Advances s t

/-- `rd` takes a value and PSR takes a value; everything else is kept. -/
def WritesRegAndPsr (rd : Reg) (v : Word) (p : Psr) (s t : State) : Prop :=
  t.reg rd = v ∧ t.psr = p ∧ t.sp = s.sp ∧ EndsPlainly [rd] s t

/-- `rd` takes a value; everything else is kept. -/
def WritesReg (rd : Reg) (v : Word) (s t : State) : Prop := WritesRegAndPsr rd v s.psr s t

/-- PSR takes a value; everything else is kept. -/
def WritesPsr (p : Psr) (s t : State) : Prop := t.psr = p ∧ t.sp = s.sp ∧ EndsPlainly [] s t

/-- SP takes a value; everything else is kept. -/
def WritesSp (v : Word) (s t : State) : Prop := t.sp = v ∧ t.psr = s.psr ∧ EndsPlainly [] s t

/-- A delayed branch has executed: the slot instruction is next, the target is remembered, and no request
is accepted before the slot (R342). -/
structure ArmsDelayedBranch (kind : DelayKind) (target : Word) (s t : State) : Prop where
  delay : t.delay = some ⟨target, kind⟩
  irqHold : t.irqHold = max s.irqHold 1
  dbgHold : t.dbgHold = true
  dbgLatch : t.dbgLatch = s.dbgLatch
  ieEffective : t.ieEffective = s.ieEffective
  ieLag : t.ieLag = s.ieLag
  runState : t.runState = s.runState
  nmiArmed : t.nmiArmed = s.nmiArmed
  psr : t.psr = s.psr
  advances : Advances s t
  draws : KeepsDraws s t

/-- The little-endian number that the `n` bytes from an address make (R61, R62). -/
def bytesValue (m : Memory) (a : Nat) : Nat → Nat
  | 0 => 0
  | n + 1 => (m.read a).toNat + 256 * bytesValue m (a + 1) n

/-- The eight registers of the core-reserved area, each at its own size (R34 to R40, R79). -/
def coreRegisterAt (w : Width) (a : Word) : Bool :=
  match w with
  | .word => a == 0xffff80 || a == 0xffff90 || a == 0xffffb0 || a == 0xffffb4
  | .byte => a == 0xffff84 || a == 0xffffa0 || a == 0xffffc0 || a == 0xffffc2
  | .half => false

/-- A load of this width at this address reads `v`: from RAM or ROM the bytes there, little endian, from
the core-reserved area the register there (R62, R79). -/
def CanLoad (s : State) (w : Width) (a : Word) (v : BitVec 32) : Prop :=
  if Config.coreAreaBase ≤ a then coreRead s w a = .next v
  else
    (∀ i < w.bytes, kindAt s.memMap (a.toNat + i) = some .ram ∨ kindAt s.memMap (a.toNat + i) = some .rom) ∧
      v.toNat = bytesValue s.mem a.toNat w.bytes

/-- A store of this width at this address is possible: RAM outside `CODE_REGION`, or a register of the core
at its own size (R63, R77, R79). -/
def CanStore (s : State) (w : Width) (a : Word) : Prop :=
  if Config.coreAreaBase ≤ a then coreRegisterAt w a = true
  else
    ∀ i < w.bytes, kindAt s.memMap (a.toNat + i) = some .ram ∧ inCodeRegion s.codeRegion (a.toNat + i) = false

/-- What a store of the low bytes of `v` at the aligned address `a` leaves: below the core-reserved area
the stored bytes read back and the core's registers are kept; in that area memory is kept and the
core's registers are as `coreWrite` leaves them. Every other byte reads as it did. -/
structure StoreEffect (w : Width) (a : Word) (v : BitVec 32) (s t : State) : Prop where
  outside : KeepsMemoryOutside a.toNat w.bytes s t
  stored : a < Config.coreAreaBase → s.mem.wf = true →
    ∀ i < w.bytes, t.mem.read (a.toNat + i) = byteOf v i
  below : a < Config.coreAreaBase → KeepsCoreRegisters s t
  inCore : Config.coreAreaBase ≤ a →
    KeepsMemory s t ∧ ∃ u, coreWrite s w a v = .next u ∧ KeepsCoreRegisters u t

/-- `u` is `s` after one store and nothing else: the store's effect, and every register, hidden value,
parameter and input outside it as it was. -/
structure StoredAt (w : Width) (a : Word) (v : BitVec 32) (s u : State) : Prop where
  effect : StoreEffect w a v s u
  regs : u.regs = s.regs
  pc : u.pc = s.pc
  sp : u.sp = s.sp
  psr : u.psr = s.psr
  ext : u.ext = s.ext
  hidden : KeepsHidden s u
  draws : KeepsDraws s u
  environment : KeepsEnvironment s u
  mode : u.dcr.dm = s.dcr.dm
  ttbr : u.ttbr = s.ttbr
  dbram : u.dbram = s.dbram

/-- The state an instruction of this step sees: the inputs taken and the boundary passed (R430 C). -/
def afterBoundary (s : State) : State :=
  (selectRequest (inputsNow s) (applyInputs (inputsNow s) (consumeInputs s))).2

/-- This step runs an instruction: no reset, awake, and no request accepted (R430 A to C). -/
structure RunsInstruction (s : State) : Prop where
  noReset : (inputsNow s).reset = false
  awake : awake s.runState (inputsNow s) = true
  noRequest :
    (selectRequest (inputsNow s) (applyInputs (inputsNow s) (consumeInputs s))).1 = none

/-- The memory a fetch at PC reads both bytes of the code from: below the core-reserved area the byte memory,
where the map has RAM or ROM, in that area the debug firmware, if there is one (R62, R67, R430 D). -/
def FetchesFrom (m : Memory) (s : State) : Prop :=
  if Config.coreAreaBase ≤ s.pc then s.debugFw = some m
  else m = s.mem ∧ ∀ i < 2, kindAt s.memMap (s.pc.toNat + i) = some .ram ∨ kindAt s.memMap (s.pc.toNat + i) = some .rom

/-- The code at PC can be fetched and decodes to an instruction (R430 D). -/
def CodeAtPc (i : Instr) (s : State) : Prop :=
  ∃ m, FetchesFrom m s ∧ decodeBytes [m.read s.pc.toNat, m.read (s.pc.toNat + 1)] = .ok (i, [])

/-- The instructions that R343 forbids in a delay slot, the delayed forms with the plain ones. -/
def forbiddenInSlot (rb : Reg) (imm7 : BitVec 7) (sign10 : BitVec 10) (imm13 : BitVec 13) (vec : BitVec 5)
    (level : BitVec 3) : List Instr :=
  [ .brk, .ext imm13, .halt, .slp, .intImm vec, .intlImm vec level, .ret, .retDelayed, .reti, .retiDelayed, .retd,
    .callImm sign10, .callDelayedImm sign10, .callReg rb, .callDelayedReg rb,
    .callaImm imm7, .callaDelayedImm imm7, .callaReg rb, .callaDelayedReg rb,
    .jprImm sign10, .jprDelayedImm sign10, .jprReg rb, .jprDelayedReg rb,
    .jpaImm imm7, .jpaDelayedImm imm7, .jpaReg rb, .jpaDelayedReg rb,
    .jrgt imm7, .jrgtDelayed imm7, .jrge imm7, .jrgeDelayed imm7, .jrlt imm7, .jrltDelayed imm7,
    .jrle imm7, .jrleDelayed imm7, .jrugt imm7, .jrugtDelayed imm7, .jruge imm7, .jrugeDelayed imm7,
    .jrult imm7, .jrultDelayed imm7, .jrule imm7, .jruleDelayed imm7,
    .jreq imm7, .jreqDelayed imm7, .jrne imm7, .jrneDelayed imm7 ]

/-- An instruction that R343 forbids in a delay slot, whatever its operands. -/
def ForbiddenInSlot (i : Instr) : Prop :=
  ∃ rb imm7 sign10 imm13 vec level, i ∈ forbiddenInSlot rb imm7 sign10 imm13 vec level

/-- The core goes on in this step: it runs, or the environment wakes it from its mode (R402, R403, R430 B). -/
def GoesOn (s : State) (inp : Inputs) : Prop :=
  s.runState = .running ∨ s.runState = .halted ∧ inp.wakeHalt = true ∨
    s.runState = .sleeping ∧ inp.wakeSleep = true

/-! ### Values as numbers -/

/-- `signed_16` (R5). -/
def signed16 (n : Nat) : Int := if n < 0x8000 then n else (n : Int) - 0x10000

/-- A byte sign-extended to 16 bits (R160). -/
def byteTo16 (b : Nat) : Nat := if b < 0x80 then b else b + 0xff00

/-- The displacement of `[%rb]` and `[%sp]` (R145). -/
def dispNat : ExtPending → Nat
  | .none => 0
  | .one e1 => e1.toNat
  | .two e1 e2 => e1.toNat % 0x800 * 0x2000 + e2.toNat

/-- The step of a modifying mode of the given transfer size (R146). -/
def stepNat (size : Nat) : ExtPending → Nat
  | .none => size
  | .one e1 => e1.toNat
  | .two e1 e2 => e1.toNat % 0x800 * 0x2000 + e2.toNat

/-- A zero-extended immediate of 7, 20 or 24 bits (R142, R147, R149). -/
def immNat24 (imm7 : BitVec 7) : ExtPending → Nat
  | .none => imm7.toNat
  | .one e1 => e1.toNat * 0x80 + imm7.toNat
  | .two e1 e2 => e1.toNat % 0x10 * 0x100000 + e2.toNat * 0x80 + imm7.toNat

/-- The zero-extended immediate of the 16-bit `imm7` forms, with at most one `ext` (R141). -/
def immNat16 (imm7 : BitVec 7) : ExtPending → Nat
  | .none => imm7.toNat
  | .one e1 | .two e1 _ => e1.toNat % 0x200 * 0x80 + imm7.toNat

/-- The immediate of the 16-bit `sign7` forms, with at most one `ext` (R143). -/
def signNat16 (sign7 : BitVec 7) : ExtPending → Nat
  | .none => if sign7.toNat < 0x40 then sign7.toNat else sign7.toNat + 0xff80
  | .one e1 | .two e1 _ => e1.toNat % 0x200 * 0x80 + sign7.toNat

/-- Not two `ext` before the instruction. -/
def AtMostOneExt (s : State) : Prop := ∀ e1 e2, s.ext ≠ .two e1 e2

/-- First operand of a 16-bit `%rd,%rs` form (R144, `A16` of R273). -/
def firstNat16 (s : State) (rd rs : Reg) : Nat :=
  match s.ext with
  | .none => (s.reg rd).toNat % 0x10000
  | .one _ | .two _ _ => (s.reg rs).toNat % 0x10000

/-- Second operand of a 16-bit `%rd,%rs` form (R144, `B16` of R273). -/
def secondNat16 (s : State) (rs : Reg) : Nat :=
  match s.ext with
  | .none => (s.reg rs).toNat % 0x10000
  | .one e1 => e1.toNat
  | .two e1 e2 => e1.toNat % 8 * 0x2000 + e2.toNat

/-- First operand of a 24-bit register form whose own first source holds `x` (`A24` of R273). -/
def firstNat24 (s : State) (x : Word) (rs : Reg) : Nat :=
  match s.ext with
  | .none => x.toNat
  | .one _ | .two _ _ => (s.reg rs).toNat

/-- Second operand of a 24-bit register form (`B24` of R273). -/
def secondNat24 (s : State) (rs : Reg) : Nat :=
  match s.ext with
  | .none => (s.reg rs).toNat
  | .one e1 => e1.toNat
  | .two e1 e2 => e1.toNat % 0x800 * 0x2000 + e2.toNat

/-- The displacement of `jr* sign7`, a number of bytes (`Rel7` of R340, R148). -/
def rel7Int (sign7 : BitVec 7) : ExtPending → Int
  | .none => 2 * sign7.toInt
  | .one e1 => (e1.toInt * 0x80 + sign7.toNat) * 2
  | .two e1 e2 => ((e1.toNat % 8 * 0x2000 + e2.toNat) * 0x80 + sign7.toNat) * 2

/-- The displacement of `jpr sign10` and `call sign10`, with at most one `ext` (`Rel10` of R340, R148). -/
def rel10Int (sign10 : BitVec 10) : ExtPending → Int
  | .none => 2 * sign10.toInt
  | .one e1 | .two e1 _ => (e1.toInt * 0x400 + sign10.toNat) * 2

/-- The target of a PC-relative branch: the address after it plus the displacement, modulo 2^24 (R340). -/
def relativeTarget (s : State) (d : Int) : Word := BitVec.ofInt 24 (s.pc.toNat + 2 + d)

/-- A register displacement, a number of bytes whose bit 0 is taken as 0 (`RelReg` of R340). -/
def relRegInt (s : State) (rb : Reg) : Int := ((s.reg rb).toNat / 2 * 2 : Nat)

/-! ### Flags and results -/

/-- V, Z and N of a 16-bit result whose exact signed value is `exact` (R29 to R31); C, IL and IE kept. -/
def flagsVZN (p : Psr) (res : Nat) (exact : Int) : Psr :=
  { p with
    v := decide (exact < -0x8000 ∨ 0x7fff < exact)
    z := decide (res = 0)
    n := decide (0x8000 ≤ res) }

/-- PSR after a 16-bit addition (R270). -/
def sumFlags (p : Psr) (a b cin : Nat) : Psr :=
  { flagsVZN p ((a + b + cin) % 0x10000) (signed16 a + signed16 b + cin) with
    c := decide (0xffff < a + b + cin) }

/-- The result of a 16-bit subtraction (R271). -/
def differenceNat (a b bin : Nat) : Nat := (a + 0x20000 - b - bin) % 0x10000

/-- PSR after a 16-bit subtraction or comparison (R271). -/
def differenceFlags (p : Psr) (a b bin : Nat) : Psr :=
  { flagsVZN p (differenceNat a b bin) (signed16 a - signed16 b - bin) with c := decide (a < b + bin) }

/-- `rd` takes the 16-bit sum, C, V, Z, N follow, nothing else changes. -/
def SumWritten (rd : Reg) (a b cin : Nat) (s t : State) : Prop :=
  WritesRegAndPsr rd (BitVec.ofNat 24 ((a + b + cin) % 0x10000)) (sumFlags s.psr a b cin) s t

/-- `rd` takes the 16-bit difference, C, V, Z, N follow, nothing else changes. -/
def DifferenceWritten (rd : Reg) (a b bin : Nat) (s t : State) : Prop :=
  WritesRegAndPsr rd (BitVec.ofNat 24 (differenceNat a b bin)) (differenceFlags s.psr a b bin) s t

/-- `rd` takes a 16-bit logic result, V is cleared, Z and N follow, C and all else is kept (R250). -/
def LogicWritten (rd : Reg) (res : Nat) (s t : State) : Prop :=
  WritesRegAndPsr rd (BitVec.ofNat 24 res) (flagsVZN s.psr res 0) s t

/-- PSR from the top byte of a saved word (R25, R71). -/
def psrOfNat (b : Nat) : Psr where
  il := BitVec.ofNat 3 (b / 32)
  ie := decide (b / 16 % 2 = 1)
  c := decide (b / 8 % 2 = 1)
  v := decide (b / 4 % 2 = 1)
  z := decide (b / 2 % 2 = 1)
  n := decide (b % 2 = 1)

/-- PSR as a number (R25). -/
def psrToNat (p : Psr) : Nat :=
  p.il.toNat * 32 + p.ie.toNat * 16 + p.c.toNat * 8 + p.v.toNat * 4 + p.z.toNat * 2 + p.n.toNat

/-- The word an interrupt saves, PSR in the top byte (R71). -/
def savedWord (p : Psr) (ret : Word) : BitVec 32 := BitVec.ofNat 32 (psrToNat p * 0x1000000 + ret.toNat)

/-! ### Memory data, shifts and the coprocessor's flags -/

/-- What a load of each kind puts into the register (R160, R64). -/
def loadedValue (t : Transfer) (v : BitVec 32) : Word :=
  match t with
  | .signedByte => BitVec.ofNat 24 (byteTo16 (v.toNat % 0x100))
  | .unsignedByte => BitVec.ofNat 24 (v.toNat % 0x100)
  | .half => BitVec.ofNat 24 (v.toNat % 0x10000)
  | .address => BitVec.ofNat 24 v.toNat

/-- An address with its low bits cleared for the width of an access (R66). -/
def alignedTo (t : Transfer) (a : Word) : Word :=
  BitVec.ofNat 24 (a.toNat / t.width.bytes * t.width.bytes)

/-- The effective address meets its boundary (R66, R443). -/
def Aligned (t : Transfer) (a : Word) : Prop := a.toNat % t.width.bytes = 0

/-- The bits shifted for an operand value (R320). -/
def shiftBits (x : Nat) : Nat := if x < 4 then x else if x < 8 then 4 else 8

/-- PSR after a shift: C is given, Z and N follow the result, V is kept (R321). -/
def shiftFlags (p : Psr) (res : Nat) (c : Bool) : Psr :=
  { p with c := c, z := decide (res = 0), n := decide (0x8000 ≤ res) }

/-- PSR with C, V, Z, N from the coprocessor's four flags, C the most significant (R420). -/
def coproPsr (p : Psr) (f : BitVec 4) : Psr :=
  { p with
    c := decide (f.toNat / 8 % 2 = 1)
    v := decide (f.toNat / 4 % 2 = 1)
    z := decide (f.toNat / 2 % 2 = 1)
    n := decide (f.toNat % 2 = 1) }

end Sys2Proof.Machine
end

