-- ==== Sys2Proof/Certificates/Slice0/Obligations.lean ====
section
/-!
DEFINITION. The statements about the machine, and the lists of instructions they speak of. The numeric readings
of the rules stand in Safety.lean.
-/

namespace Sys2Proof.Machine

/-! ### The memory forms -/

/-- A memory form: the instruction, its kind of datum and its effective address. -/
structure MemForm where
  instr : Instr
  kind : Transfer
  address : Word

/-- The loads that keep their base: `[%rb]`, `[%sp+imm7]`, `[imm7]` of each kind, and `[%sp]` (R145, R147). -/
def plainLoads (s : State) (rd rb : Reg) (imm7 : BitVec 7) : List MemForm :=
  let ind := s.reg rb + BitVec.ofNat 24 (dispNat s.ext)
  let sp7 := s.sp + BitVec.ofNat 24 (immNat24 imm7 s.ext)
  let abs := BitVec.ofNat 24 (immNat24 imm7 s.ext)
  [ ⟨.ldbLoadInd rd rb, .signedByte, ind⟩, ⟨.ldubLoadInd rd rb, .unsignedByte, ind⟩,
    ⟨.ldLoadInd rd rb, .half, ind⟩, ⟨.ldaLoadInd rd rb, .address, ind⟩,
    ⟨.ldbLoadSpDisp rd imm7, .signedByte, sp7⟩, ⟨.ldubLoadSpDisp rd imm7, .unsignedByte, sp7⟩,
    ⟨.ldLoadSpDisp rd imm7, .half, sp7⟩, ⟨.ldaLoadSpDisp rd imm7, .address, sp7⟩,
    ⟨.ldbLoadAbs rd imm7, .signedByte, abs⟩, ⟨.ldubLoadAbs rd imm7, .unsignedByte, abs⟩,
    ⟨.ldLoadAbs rd imm7, .half, abs⟩, ⟨.ldaLoadAbs rd imm7, .address, abs⟩,
    ⟨.ldaLoadSp rd, .address, s.sp + BitVec.ofNat 24 (dispNat s.ext)⟩ ]

/-- The stores that keep their base (R145, R147). -/
def plainStores (s : State) (rb rs : Reg) (imm7 : BitVec 7) : List MemForm :=
  let ind := s.reg rb + BitVec.ofNat 24 (dispNat s.ext)
  let sp7 := s.sp + BitVec.ofNat 24 (immNat24 imm7 s.ext)
  let abs := BitVec.ofNat 24 (immNat24 imm7 s.ext)
  [ ⟨.ldbStoreInd rb rs, .signedByte, ind⟩, ⟨.ldStoreInd rb rs, .half, ind⟩,
    ⟨.ldaStoreInd rb rs, .address, ind⟩,
    ⟨.ldbStoreSpDisp imm7 rs, .signedByte, sp7⟩, ⟨.ldStoreSpDisp imm7 rs, .half, sp7⟩,
    ⟨.ldaStoreSpDisp imm7 rs, .address, sp7⟩,
    ⟨.ldbStoreAbs imm7 rs, .signedByte, abs⟩, ⟨.ldStoreAbs imm7 rs, .half, abs⟩,
    ⟨.ldaStoreAbs imm7 rs, .address, abs⟩,
    ⟨.ldaStoreSp rs, .address, s.sp + BitVec.ofNat 24 (dispNat s.ext)⟩ ]

/-- A modifying form: a memory form and what its base becomes. -/
structure ModifyForm extends MemForm where
  base : Word

/-- One modifying mode, its address and new base from the old base and the step (R134). -/
inductive ModifyMode where
  | postInc | postDec | preDec

/-- The address of a modifying mode (R134). -/
def ModifyMode.address (m : ModifyMode) (base step : Word) : Word :=
  match m with
  | .postInc | .postDec => base
  | .preDec => base - step

/-- The base after a modifying mode (R134). -/
def ModifyMode.after (m : ModifyMode) (base step : Word) : Word :=
  match m with
  | .postInc => base + step
  | .postDec | .preDec => base - step

/-- A modifying form of an instruction on a base register. -/
def modifyForm (s : State) (rb : Reg) (i : Instr) (t : Transfer) (m : ModifyMode) : ModifyForm :=
  let step := BitVec.ofNat 24 (stepNat t.width.bytes s.ext)
  { instr := i, kind := t, address := m.address (s.reg rb) step, base := m.after (s.reg rb) step }

/-- The loads that modify their base register. -/
def modifyingLoads (s : State) (rd rb : Reg) : List ModifyForm :=
  [ modifyForm s rb (.ldbLoadPostInc rd rb) .signedByte .postInc,
    modifyForm s rb (.ldbLoadPostDec rd rb) .signedByte .postDec,
    modifyForm s rb (.ldbLoadPreDec rd rb) .signedByte .preDec,
    modifyForm s rb (.ldubLoadPostInc rd rb) .unsignedByte .postInc,
    modifyForm s rb (.ldubLoadPostDec rd rb) .unsignedByte .postDec,
    modifyForm s rb (.ldubLoadPreDec rd rb) .unsignedByte .preDec,
    modifyForm s rb (.ldLoadPostInc rd rb) .half .postInc,
    modifyForm s rb (.ldLoadPostDec rd rb) .half .postDec,
    modifyForm s rb (.ldLoadPreDec rd rb) .half .preDec,
    modifyForm s rb (.ldaLoadPostInc rd rb) .address .postInc,
    modifyForm s rb (.ldaLoadPostDec rd rb) .address .postDec,
    modifyForm s rb (.ldaLoadPreDec rd rb) .address .preDec ]

/-- The stores that modify their base register after the access; `rs` may be `rb`. -/
def postModifyingStores (s : State) (rb rs : Reg) : List ModifyForm :=
  [ modifyForm s rb (.ldbStorePostInc rb rs) .signedByte .postInc,
    modifyForm s rb (.ldbStorePostDec rb rs) .signedByte .postDec,
    modifyForm s rb (.ldStorePostInc rb rs) .half .postInc,
    modifyForm s rb (.ldStorePostDec rb rs) .half .postDec,
    modifyForm s rb (.ldaStorePostInc rb rs) .address .postInc,
    modifyForm s rb (.ldaStorePostDec rb rs) .address .postDec ]

/-- The stores that modify their base register before the access; `rs` may not be `rb` (R162). -/
def preModifyingStores (s : State) (rb rs : Reg) : List ModifyForm :=
  [ modifyForm s rb (.ldbStorePreDec rb rs) .signedByte .preDec,
    modifyForm s rb (.ldStorePreDec rb rs) .half .preDec,
    modifyForm s rb (.ldaStorePreDec rb rs) .address .preDec ]

/-- A modifying form of `ld.a` on SP (R229 to R236). -/
def spForm (s : State) (i : Instr) (m : ModifyMode) : ModifyForm :=
  let step := BitVec.ofNat 24 (stepNat 4 s.ext)
  { instr := i, kind := .address, address := m.address s.sp step
    base := align4 (m.after s.sp step) }

/-- The loads that modify SP. -/
def spLoads (s : State) (rd : Reg) : List ModifyForm :=
  [ spForm s (.ldaLoadSpPostInc rd) .postInc, spForm s (.ldaLoadSpPostDec rd) .postDec,
    spForm s (.ldaLoadSpPreDec rd) .preDec ]

/-- The stores that modify SP. -/
def spStores (s : State) (rs : Reg) : List ModifyForm :=
  [ spForm s (.ldaStoreSpPostInc rs) .postInc, spForm s (.ldaStoreSpPostDec rs) .postDec,
    spForm s (.ldaStoreSpPreDec rs) .preDec ]

/-- The end of an instruction that stored, changed the general registers listed and nothing else but
possibly SP. -/
structure StoresAndEnds (except : List Reg) (w : Width) (a : Word) (v : BitVec 32) (s t : State) : Prop where
  store : StoreEffect w a v s t
  regs : KeepsRegs except s t
  psr : t.psr = s.psr
  environment : KeepsEnvironment s t
  hidden : KeepsHidden s t
  draws : KeepsDraws s t
  advances : Advances s t

/-! ### The conditional forms and jumps -/

/-- An instruction with its `/c` and `/nc` forms. -/
structure ConditionalForm where
  plain : Instr
  ifCarry : Instr
  ifNoCarry : Instr

/-- The thirteen instructions that have the switch (R250, R272). -/
def conditionalForms (rd rs : Reg) : List ConditionalForm :=
  [ ⟨.andRR rd rs, .andC rd rs, .andNC rd rs⟩, ⟨.orRR rd rs, .orC rd rs, .orNC rd rs⟩,
    ⟨.xorRR rd rs, .xorC rd rs, .xorNC rd rs⟩, ⟨.notRR rd rs, .notC rd rs, .notNC rd rs⟩,
    ⟨.addRR rd rs, .addC rd rs, .addNC rd rs⟩, ⟨.adcRR rd rs, .adcC rd rs, .adcNC rd rs⟩,
    ⟨.subRR rd rs, .subC rd rs, .subNC rd rs⟩, ⟨.sbcRR rd rs, .sbcC rd rs, .sbcNC rd rs⟩,
    ⟨.cmpRR rd rs, .cmpC rd rs, .cmpNC rd rs⟩, ⟨.cmcRR rd rs, .cmcC rd rs, .cmcNC rd rs⟩,
    ⟨.addaRR rd rs, .addaC rd rs, .addaNC rd rs⟩, ⟨.subaRR rd rs, .subaC rd rs, .subaNC rd rs⟩,
    ⟨.cmpaRR rd rs, .cmpaC rd rs, .cmpaNC rd rs⟩ ]

/-- A conditional jump, its delayed form and its condition on the flags (R344). -/
structure CondJump where
  plain : Instr
  delayed : Instr
  taken : Bool

/-- The ten conditional jumps (R344). -/
def condJumps (sign7 : BitVec 7) (p : Psr) : List CondJump :=
  [ ⟨.jrgt sign7, .jrgtDelayed sign7, !p.z && (p.n == p.v)⟩, ⟨.jrge sign7, .jrgeDelayed sign7, p.n == p.v⟩,
    ⟨.jrlt sign7, .jrltDelayed sign7, p.n != p.v⟩, ⟨.jrle sign7, .jrleDelayed sign7, p.z || (p.n != p.v)⟩,
    ⟨.jrugt sign7, .jrugtDelayed sign7, !p.z && !p.c⟩, ⟨.jruge sign7, .jrugeDelayed sign7, !p.c⟩,
    ⟨.jrult sign7, .jrultDelayed sign7, p.c⟩, ⟨.jrule sign7, .jruleDelayed sign7, p.z || p.c⟩,
    ⟨.jreq sign7, .jreqDelayed sign7, p.z⟩, ⟨.jrne sign7, .jrneDelayed sign7, !p.z⟩ ]

/-- A branch with its delayed form and its target. -/
structure BranchForm where
  plain : Instr
  delayed : Instr
  target : Word

/-- The jumps other than `jpr sign10` (R347 to R352). -/
def jumps (s : State) (rb : Reg) (imm7 : BitVec 7) : List BranchForm :=
  [ ⟨.jprReg rb, .jprDelayedReg rb, relativeTarget s (relRegInt s rb)⟩,
    ⟨.jpaImm imm7, .jpaDelayedImm imm7, even (BitVec.ofNat 24 (immNat24 imm7 s.ext))⟩,
    ⟨.jpaReg rb, .jpaDelayedReg rb, even (s.reg rb)⟩ ]

/-- The calls other than `call sign10` (R375 to R380). -/
def calls (s : State) (rb : Reg) (imm7 : BitVec 7) : List BranchForm :=
  [ ⟨.callReg rb, .callDelayedReg rb, relativeTarget s (relRegInt s rb)⟩,
    ⟨.callaImm imm7, .callaDelayedImm imm7, even (BitVec.ofNat 24 (immNat24 imm7 s.ext))⟩,
    ⟨.callaReg rb, .callaDelayedReg rb, even (s.reg rb)⟩ ]

/-- A plain call: the return address `pc + 2` is stored below the old top of stack, SP goes down by 4 and PC
takes the target; nothing else changes (R341, R373). -/
structure CallsTo (target : Word) (s t : State) : Prop where
  pc : t.pc = even target
  sp : t.sp = align4 (s.sp - 4)
  ext : t.ext = .none
  psr : t.psr = s.psr
  regs : KeepsRegs [] s t
  store : StoreEffect .word (align4 (s.sp - 4)) (zeroTop (s.pc + 2)) s t
  environment : KeepsEnvironment s t
  hidden : KeepsHidden s t
  draws : KeepsDraws s t

/-- A delayed call: the return address is `pc + 4` and the branch is armed for its slot (R341, R342). -/
structure CallsToDelayed (target : Word) (s t : State) : Prop where
  sp : t.sp = align4 (s.sp - 4)
  regs : KeepsRegs [] s t
  store : StoreEffect .word (align4 (s.sp - 4)) (zeroTop (s.pc + 4)) s t
  environment : KeepsEnvironment s t
  armed : ArmsDelayedBranch .callOrReturn target s t

/-! ### The shifts -/

/-- A shift: the instruction, its operand value, its result and the last bit out, for an amount of `k` bits. -/
structure ShiftForm where
  instr : Instr
  operand : Nat
  result : Nat → Nat
  lastOut : Nat → Bool

/-- The six shifts of R322 to R327; `v` is `rd[15:0]` (R321). -/
def shiftForms (s : State) (rd rs : Reg) (imm7 : BitVec 7) : List ShiftForm :=
  let v := (s.reg rd).toNat % 0x10000
  let amount := (s.reg rs).toNat % 0x10000
  let right (k : Nat) : Nat := v / 2 ^ k
  let arith (k : Nat) : Nat := ((signed16 v / 2 ^ k) % 0x10000).toNat
  let left (k : Nat) : Nat := v * 2 ^ k % 0x10000
  let outRight (k : Nat) : Bool := decide (v / 2 ^ (k - 1) % 2 = 1)
  let outLeft (k : Nat) : Bool := decide (v / 2 ^ (16 - k) % 2 = 1)
  [ ⟨.srRR rd rs, amount, right, outRight⟩, ⟨.srImm rd imm7, imm7.toNat, right, outRight⟩,
    ⟨.saRR rd rs, amount, arith, outRight⟩, ⟨.saImm rd imm7, imm7.toNat, arith, outRight⟩,
    ⟨.slRR rd rs, amount, left, outLeft⟩, ⟨.slImm rd imm7, imm7.toNat, left, outLeft⟩ ]

/-! ### The coprocessor -/

/-- A coprocessor instruction: its kind and its data 1 (R420). -/
structure CoproForm where
  instr : Instr
  data1 : Word

/-- The two forms of a coprocessor instruction (R420). -/
def coproForms (reg : Reg → Reg → Instr) (imm : Reg → BitVec 7 → Instr) (s : State) (rd rs : Reg)
    (imm7 : BitVec 7) : List CoproForm :=
  [ ⟨reg rd rs, s.reg rs⟩, ⟨imm rd imm7, BitVec.ofNat 24 (immNat24 imm7 s.ext)⟩ ]

end Sys2Proof.Machine

open Sys2Proof Sys2Proof.Machine

/-! ### Encoding (spec 30_encoding.md) -/

/-- Every instruction decodes back from its two bytes, whatever follows them, with every operand at every
value its field admits. The register overlap that `Instr.WellFormed` excludes is an execution fault (R162),
not a decoding one, so those instructions are included. -/
def Obligations.DecodeInvertsEncode : Prop :=
  ∀ (i : Instr) (rest : List Byte),
    decodeWord (encode i) = some i ∧ decodeBytes (encodeBytes i ++ rest) = .ok (i, rest)

/-- A code that decodes is the code of the instruction it decodes to: no two codes name one instruction, and
a code that differs from an assigned one in a fixed field only is not an alias (R110, D2). -/
def Obligations.EncodeInvertsDecode : Prop :=
  ∀ (w : BitVec 16) (i : Instr), decodeWord w = some i → encode i = w

/-- Codes the spec writes out, one or more of each format, decode to the instruction beside them. -/
def Obligations.SampleCodesDecode : Prop :=
  decodeWord 0x0000 = some .nop ∧ decodeWord 0x0128 = some .reti ∧
  decodeWord 0x0187 = some (.callDelayedReg .r7) ∧ decodeWord 0x0f04 = some (.jrne 0x04) ∧
  decodeWord 0x1810 = some (.callImm 0x010) ∧ decodeWord 0x20a1 = some (.ldbLoadPostInc .r1 .r1) ∧
  decodeWord 0x2541 = some (.ldbStorePreDec .r1 .r2) ∧ decodeWord 0x2879 = some (.cval .r0 .r1) ∧
  decodeWord 0x2ce2 = some (.srRR .r1 .r2) ∧ decodeWord 0x30c2 = some (.addaRR .r1 .r2) ∧
  decodeWord 0x351b = some (.ldcaRR .r2 .r3) ∧ decodeWord 0x3801 = some (.addC .r0 .r1) ∧
  decodeWord 0x3c5c = some (.ldaStoreSpPreDec .r0) ∧ decodeWord 0x3fb0 = some (.ldaRdPc .r7) ∧
  decodeWord 0x5fff = some (.ext 0x1fff) ∧ decodeWord 0x750f = some (.intlImm 3 2) ∧
  decodeWord 0x3009 = some (.addaSpRs .r1) ∧ decodeWord 0x301d = some (.subaSpRs .r5) ∧
  decodeWord 0x6407 = some (.addaSpImm 0x07) ∧ decodeWord 0x6c7f = some (.subaSpImm 0x7f) ∧
  decodeWord 0xbc00 = some (.ldaSpImm 0x00) ∧
  decodeWord 0x807f = some (.addImm .r0 0x7f) ∧ decodeWord 0xfd88 = some (.ldaStoreSpDisp 0x08 .r3) ∧
  decodeWord 0x0001 = none

/-- An unassigned code at PC is a fault of the step that fetches it, from memory or from the debug firmware
(R110, R430 D). -/
def Obligations.UnassignedCodeFaults : Prop :=
  ∀ (s : State) (m : Memory), RunsInstruction s → FetchesFrom m (afterBoundary s) →
    decodeBytes [m.read (afterBoundary s).pc.toNat, m.read ((afterBoundary s).pc.toNat + 1)] =
      .error .unassignedOpcode →
    step s = .fault .unassignedOpcode

/-! ### Memory and the core's registers (spec 20_memory.md, 10_state.md) -/

/-- R79: the eight registers of the core-reserved area, each at its own size; what each read sees and each
write does; every other access to the area is a fault. -/
def Obligations.CoreRegisterAccesses : Prop :=
  ∀ (s : State) (v : BitVec 32),
    (memRead s .word 0xffff80 = .next (BitVec.ofNat 32 s.ttbr.toNat) ∧
      memRead s .word 0xffff90 = .next (BitVec.ofNat 32 s.dbram.toNat) ∧
      memRead s .word 0xffffb0 = .next (BitVec.ofNat 32 s.ibar0.toNat) ∧
      memRead s .word 0xffffb4 = .next (BitVec.ofNat 32 s.ibar1.toNat) ∧
      memRead s .byte 0xffff84 = .next 0x10 ∧
      memRead s .byte 0xffffa0 = .next (BitVec.ofNat 32 (s.dcr.dr.toNat * 16 + s.dcr.ibe1.toNat * 8 +
        s.dcr.ibe0.toNat * 4 + s.dcr.se.toNat * 2 + s.dcr.dm.toNat)) ∧
      memRead s .byte 0xffffc0 = .next (BitVec.ofNat 32 (s.ssr.rxden.toNat * 4 + s.ssr.tdbe.toNat * 2 +
        s.ssr.rdbf.toNat)) ∧
      memRead s .byte 0xffffc2 = .next (BitVec.ofNat 32 s.sdr.toNat)) ∧
    (memWrite s .word 0xffff80 v = .next s ∧ memWrite s .word 0xffff90 v = .next s ∧
      memWrite s .byte 0xffff84 v = .next s ∧
      memWrite s .word 0xffffb0 v = .next { s with ibar0 := BitVec.ofNat 24 (v.toNat / 2 * 2) } ∧
      memWrite s .word 0xffffb4 v = .next { s with ibar1 := BitVec.ofNat 24 (v.toNat / 2 * 2) } ∧
      memWrite s .byte 0xffffa0 v = .next { s with
        dcr := { dr := s.dcr.dr && !decide (v.toNat / 16 % 2 = 1), ibe1 := decide (v.toNat / 8 % 2 = 1)
                 ibe0 := decide (v.toNat / 4 % 2 = 1), se := decide (v.toNat / 2 % 2 = 1), dm := s.dcr.dm } } ∧
      memWrite s .byte 0xffffc0 v =
        .next { s with ssr := { s.ssr with rxden := decide (v.toNat / 4 % 2 = 1) } } ∧
      memWrite s .byte 0xffffc2 v = .next { s with sdr := BitVec.ofNat 8 v.toNat }) ∧
    ∀ (w : Width) (a : Word), Config.coreAreaBase ≤ a → coreRegisterAt w a = false →
      memRead s w a = .fault .unmappedCoreIO ∧ memWrite s w a v = .fault .unmappedCoreIO

/-- R61: after a store of each width, at an address aligned for it below the core-reserved area, every read inside
the stored bytes sees the little-endian part of the value, and every byte outside them reads as before (R63). -/
def Obligations.MemoryReadAfterWrite : Prop :=
  ∀ (s u : State) (a : Word) (v : BitVec 32), s.mem.wf = true → a < Config.coreAreaBase →
    (a.toNat % 4 = 0 → memWrite s .word a v = .next u →
      memRead u .word a = .next v ∧
      memRead u .half a = .next (BitVec.ofNat 32 (v.toNat % 0x10000)) ∧
      memRead u .half (a + 2) = .next (BitVec.ofNat 32 (v.toNat / 0x10000)) ∧
      memRead u .byte a = .next (BitVec.ofNat 32 (v.toNat % 0x100)) ∧
      memRead u .byte (a + 1) = .next (BitVec.ofNat 32 (v.toNat / 0x100 % 0x100)) ∧
      memRead u .byte (a + 2) = .next (BitVec.ofNat 32 (v.toNat / 0x10000 % 0x100)) ∧
      memRead u .byte (a + 3) = .next (BitVec.ofNat 32 (v.toNat / 0x1000000)) ∧
      KeepsMemoryOutside a.toNat 4 s u) ∧
    (a.toNat % 2 = 0 → memWrite s .half a v = .next u →
      memRead u .half a = .next (BitVec.ofNat 32 (v.toNat % 0x10000)) ∧
      memRead u .byte a = .next (BitVec.ofNat 32 (v.toNat % 0x100)) ∧
      memRead u .byte (a + 1) = .next (BitVec.ofNat 32 (v.toNat / 0x100 % 0x100)) ∧
      KeepsMemoryOutside a.toNat 2 s u) ∧
    (memWrite s .byte a v = .next u →
      memRead u .byte a = .next (BitVec.ofNat 32 (v.toNat % 0x100)) ∧ KeepsMemoryOutside a.toNat 1 s u)

/-- When an access below the core-reserved area stops and how: at the first byte, in address order, that
`MEM_MAP` or `CODE_REGION` does not allow (R62, R63, R77). The order of the checks and the refusal of a device are
the model's choices (log entries 11 and 12). -/
def Obligations.AccessFaults : Prop :=
  ∀ (s : State) (w : Width) (a : Word) (v : BitVec 32) (i : Nat), a < Config.coreAreaBase → i < w.bytes →
    ((∀ j < i, kindAt s.memMap (a.toNat + j) = some .ram ∨ kindAt s.memMap (a.toNat + j) = some .rom) →
      (kindAt s.memMap (a.toNat + i) = none → memRead s w a = .fault .unmappedRead) ∧
      (kindAt s.memMap (a.toNat + i) = some .device → memRead s w a = .refused .deviceAccess)) ∧
    ((∀ j < i, kindAt s.memMap (a.toNat + j) = some .ram ∧ inCodeRegion s.codeRegion (a.toNat + j) = false) →
      (kindAt s.memMap (a.toNat + i) = none → memWrite s w a v = .fault .badWrite) ∧
      (kindAt s.memMap (a.toNat + i) = some .rom → memWrite s w a v = .fault .badWrite) ∧
      (kindAt s.memMap (a.toNat + i) = some .ram → inCodeRegion s.codeRegion (a.toNat + i) = true →
        memWrite s w a v = .fault .writeToCode) ∧
      (kindAt s.memMap (a.toNat + i) = some .device → memWrite s w a v = .refused .deviceAccess))

/-! ### The `ext` prefix (spec 40_addressing_ext.md) -/

/-- R150: `ext` appends its immediate, keeps the last two, opens mask interval (1) and does nothing else. -/
def Obligations.ExtPrefixEffect : Prop :=
  ∀ (s : State) (e : BitVec 13),
    exec (.ext e) s = .next { s with
      ext := match s.ext with
        | .none => .one e
        | .one e1 => .two e1 e
        | .two _ e2 => .two e2 e
      irqHold := max s.irqHold 1
      dbgHold := true
      pc := s.pc + 2 }

/-- R140 item 2: every instruction but `ext` leaves no `ext` pending, whichever way it completes. -/
def Obligations.OnlyExtLeavesPrefixPending : Prop :=
  ∀ (i : Instr) (s t : State), exec i s = .next t → (∀ e, i ≠ .ext e) → t.ext = .none

/-- Operands that stop an instruction: two `ext` before a form that takes one (R140 item 4), the register
overlap of R162, and an SP step that is not a multiple of 4 (R230, R231, R234, R235). -/
def Obligations.OperandFaults : Prop :=
  ∀ (s : State) (r q : Reg) (imm7 : BitVec 7) (imm10 : BitVec 10),
    (¬ AtMostOneExt s →
      ∀ i ∈ [Instr.addImm r imm7, .adcImm r imm7, .subImm r imm7, .sbcImm r imm7, .cmpImm r imm7,
        .cmcImm r imm7, .andImm r imm7, .orImm r imm7, .xorImm r imm7, .notImm r imm7, .ldImm r imm7,
        .jprImm imm10, .jprDelayedImm imm10, .callImm imm10, .callDelayedImm imm10],
      exec i s = .fault .extCountUnsupported) ∧
    (∀ f ∈ modifyingLoads s r r ++ preModifyingStores s r r,
      exec f.instr s = .fault .modifyRegisterOverlap) ∧
    (stepNat 4 s.ext % 4 ≠ 0 →
      ∀ i ∈ [Instr.ldaLoadSpPostInc q, .ldaLoadSpPostDec q, .ldaStoreSpPostInc q, .ldaStoreSpPostDec q],
      exec i s = .fault .spStepMisaligned)

/-! ### Transfers (spec 41_transfer_byte_word.md, 42_transfer_a.md, 45, 48) -/

/-- The register-to-register transfers, the conversions and `swap`: the value each writes, and nothing else
changes (R163, R176, R183, R211, R411 to R415, R328). -/
def Obligations.RegisterTransferResults : Prop :=
  ∀ (s : State) (rd rs : Reg),
    let v := (s.reg rs).toNat
    let old := (s.reg rd).toNat
    Completes (.ldbRR rd rs) s (WritesReg rd (BitVec.ofNat 24 (byteTo16 (v % 0x100))) s) ∧
    Completes (.ldubRR rd rs) s (WritesReg rd (BitVec.ofNat 24 (v % 0x100)) s) ∧
    Completes (.ldRR rd rs) s (WritesReg rd (BitVec.ofNat 24 (v % 0x10000)) s) ∧
    Completes (.ldaRR rd rs) s (WritesReg rd (BitVec.ofNat 24 v) s) ∧
    Completes (.cvab rd rs) s
      (WritesReg rd (BitVec.ofNat 24 (if v % 0x100 < 0x80 then v % 0x100 else v % 0x100 + 0xffff00)) s) ∧
    Completes (.cvas rd rs) s
      (WritesReg rd (BitVec.ofNat 24 (if v % 0x10000 < 0x8000 then v % 0x10000 else v % 0x10000 + 0xff0000)) s) ∧
    Completes (.cval rd rs) s (WritesReg rd (BitVec.ofNat 24 (v % 0x100 * 0x10000 + old % 0x10000)) s) ∧
    Completes (.cvla rd rs) s (WritesReg rd (BitVec.ofNat 24 (v / 0x10000)) s) ∧
    Completes (.cvls rd rs) s
      (WritesReg rd (if v % 0x10000 < 0x8000 then 0x000000 else 0x00ffff) s) ∧
    Completes (.swap rd rs) s
      (WritesReg rd (BitVec.ofNat 24 (v % 0x100 * 0x100 + v / 0x100 % 0x100)) s)

/-- The immediate loads, and the moves between SP and a register (R184, R212, R214 to R216): a load of SP
drops bits 1:0 and lifts the NMI mask (R47). -/
def Obligations.ImmediateAndStackPointerLoads : Prop :=
  ∀ (s : State) (r : Reg) (imm7 : BitVec 7),
    (AtMostOneExt s →
      Completes (.ldImm r imm7) s (WritesReg r (BitVec.ofNat 24 (signNat16 imm7 s.ext)) s)) ∧
    Completes (.ldaImm r imm7) s (WritesReg r (BitVec.ofNat 24 (immNat24 imm7 s.ext)) s) ∧
    Completes (.ldaRdSp r) s (WritesReg r (BitVec.ofNat 24 (s.sp.toNat / 4 * 4)) s) ∧
    exec (.ldaSpRs r) s = .next { s with
      sp := BitVec.ofNat 24 ((s.reg r).toNat / 4 * 4), pc := s.pc + 2, ext := .none, nmiArmed := true } ∧
    exec (.ldaSpImm imm7) s = .next { s with
      sp := BitVec.ofNat 24 (immNat24 imm7 s.ext / 4 * 4), pc := s.pc + 2, ext := .none, nmiArmed := true }

/-- R213: `ld.a %rd,%pc` loads its own address plus 2 in the slot of a delayed jump, and is a fault
elsewhere. -/
def Obligations.ProgramCounterRead : Prop :=
  ∀ (s : State) (rd : Reg),
    if ∃ d, s.delay = some d ∧ d.kind = .jump then
      Completes (.ldaRdPc rd) s (WritesReg rd (s.pc + 2) s)
    else exec (.ldaRdPc rd) s = .fault .pcReadOutsideDelaySlot

/-- The loads that keep their base: at an aligned address that can be read, `rd` takes the datum extended as
R160 says and nothing else changes (R164, R168, R169 and their like). -/
def Obligations.PlainLoadResults : Prop :=
  ∀ (s : State) (rd rb : Reg) (imm7 : BitVec 7) (v : BitVec 32), ∀ f ∈ plainLoads s rd rb imm7,
    Aligned f.kind f.address → CanLoad s f.kind.width f.address v →
    Completes f.instr s (WritesReg rd (loadedValue f.kind v) s)

/-- The loads that modify their base (R134, R146): `rd` takes the datum, `rb` the old base plus or minus the
step, and nothing else changes. With `rd` = `rb` they stop (`OperandFaults`). -/
def Obligations.ModifyingLoadResults : Prop :=
  ∀ (s : State) (rd rb : Reg) (v : BitVec 32), rd ≠ rb → ∀ f ∈ modifyingLoads s rd rb,
    Aligned f.kind f.address → CanLoad s f.kind.width f.address v →
    Completes f.instr s fun t =>
      t.reg rd = loadedValue f.kind v ∧ t.reg rb = f.base ∧ t.psr = s.psr ∧ t.sp = s.sp ∧
        EndsPlainly [rd, rb] s t

/-- The stores that keep their base: at an aligned address that can be written, the low bytes of `rs` (with a
zero top byte for 32 bits) are stored at the effective address and nothing else changes (R65, R170, R223). -/
def Obligations.PlainStoreResults : Prop :=
  ∀ (s : State) (rb rs : Reg) (imm7 : BitVec 7), ∀ f ∈ plainStores s rb rs imm7,
    Aligned f.kind f.address → CanStore s f.kind.width f.address →
    Completes f.instr s fun t =>
      StoresAndEnds [] f.kind.width f.address (zeroTop (s.reg rs)) s t ∧ t.sp = s.sp

/-- The stores that modify their base: the value is the one `rs` held before, also with `rs` = `rb` where R162
allows it, and `rb` takes the old base plus or minus the step. -/
def Obligations.ModifyingStoreResults : Prop :=
  ∀ (s : State) (rb rs : Reg) (f : ModifyForm),
    (f ∈ postModifyingStores s rb rs ∨ rs ≠ rb ∧ f ∈ preModifyingStores s rb rs) →
    Aligned f.kind f.address → CanStore s f.kind.width f.address →
    Completes f.instr s fun t =>
      StoresAndEnds [rb] f.kind.width f.address (zeroTop (s.reg rs)) s t ∧ t.sp = s.sp ∧ t.reg rb = f.base

/-- The loads and stores of `ld.a` that modify SP, the push and the pop among them (R230 to R236), with a step
that keeps SP a multiple of 4. -/
def Obligations.StackPointerModifyingTransfers : Prop :=
  ∀ (s : State) (r : Reg), stepNat 4 s.ext % 4 = 0 →
    (∀ v, ∀ f ∈ spLoads s r, Aligned .address f.address → CanLoad s .word f.address v →
      Completes f.instr s fun t =>
        t.reg r = BitVec.ofNat 24 v.toNat ∧ t.sp = f.base ∧ t.psr = s.psr ∧ EndsPlainly [r] s t) ∧
    (∀ f ∈ spStores s r, Aligned .address f.address → CanStore s .word f.address →
      Completes f.instr s fun t =>
        StoresAndEnds [] .word f.address (zeroTop (s.reg r)) s t ∧ t.sp = f.base)

/-- A memory form at a misaligned address completes at the address with its low bits cleared, its base update
included, and then takes the address-misaligned interrupt, vector 1, with its own address (R66, R443). -/
def Obligations.MisalignedTransferTakesInterrupt : Prop :=
  ∀ (s : State) (r q : Reg) (imm7 : BitVec 7) (v : BitVec 32), s.delay = none → s.dcr.dm = false →
    (∀ f ∈ plainLoads s r q imm7, ¬ Aligned f.kind f.address →
      CanLoad s f.kind.width (alignedTo f.kind f.address) v →
      exec f.instr s = interruptEntry (s.setReg r (loadedValue f.kind v)) .misaligned 1 s.pc) ∧
    (∀ f ∈ modifyingLoads s r q, r ≠ q → ¬ Aligned f.kind f.address →
      CanLoad s f.kind.width (alignedTo f.kind f.address) v →
      exec f.instr s =
        interruptEntry ((s.setReg r (loadedValue f.kind v)).setReg q f.base) .misaligned 1 s.pc) ∧
    (∀ f ∈ plainStores s q r imm7, ∀ u, ¬ Aligned f.kind f.address →
      memWrite s f.kind.width (alignedTo f.kind f.address) (zeroTop (s.reg r)) = .next u →
      exec f.instr s = interruptEntry u .misaligned 1 s.pc) ∧
    (∀ f, (f ∈ postModifyingStores s q r ∨ r ≠ q ∧ f ∈ preModifyingStores s q r) →
      ∀ u, ¬ Aligned f.kind f.address →
      memWrite s f.kind.width (alignedTo f.kind f.address) (zeroTop (s.reg r)) = .next u →
      exec f.instr s = interruptEntry (u.setReg q f.base) .misaligned 1 s.pc) ∧
    (stepNat 4 s.ext % 4 ≠ 0 → s.sp.toNat % 4 = 0 →
      (CanLoad s .word (alignedTo .address (s.sp - BitVec.ofNat 24 (stepNat 4 s.ext))) v →
        exec (.ldaLoadSpPreDec r) s =
          interruptEntry
            ((s.setReg r (BitVec.ofNat 24 v.toNat)).setSp (s.sp - BitVec.ofNat 24 (stepNat 4 s.ext)))
            .misaligned 1 s.pc) ∧
      (∀ u, memWrite s .word (alignedTo .address (s.sp - BitVec.ofNat 24 (stepNat 4 s.ext)))
          (zeroTop (s.reg r)) = .next u →
        exec (.ldaStoreSpPreDec r) s =
          interruptEntry (u.setSp (s.sp - BitVec.ofNat 24 (stepNat 4 s.ext))) .misaligned 1 s.pc))

/-- A misaligned transfer is a fault in a delay slot (R343) and, outside one, in debug mode (R463), the
pre-decrement SP forms with a step that is no multiple of 4 included (R232, R236). That the slot's
fault comes first when both hold is the model's choice (log entry 13). -/
def Obligations.MisalignedTransferFaults : Prop :=
  ∀ (s : State) (r q : Reg) (imm7 : BitVec 7) (v : BitVec 32) (fault : Fault),
    (s.delay ≠ none ∧ fault = .misalignedInDelaySlot ∨
      s.delay = none ∧ s.dcr.dm = true ∧ fault = .interruptInDebugMode) →
    (∀ f ∈ plainLoads s r q imm7, ¬ Aligned f.kind f.address →
      CanLoad s f.kind.width (alignedTo f.kind f.address) v → exec f.instr s = .fault fault) ∧
    (∀ f ∈ modifyingLoads s r q, r ≠ q → ¬ Aligned f.kind f.address →
      CanLoad s f.kind.width (alignedTo f.kind f.address) v → exec f.instr s = .fault fault) ∧
    (∀ f ∈ plainStores s q r imm7, ¬ Aligned f.kind f.address →
      CanStore s f.kind.width (alignedTo f.kind f.address) → exec f.instr s = .fault fault) ∧
    (∀ f, (f ∈ postModifyingStores s q r ∨ r ≠ q ∧ f ∈ preModifyingStores s q r) →
      ¬ Aligned f.kind f.address →
      CanStore s f.kind.width (alignedTo f.kind f.address) → exec f.instr s = .fault fault) ∧
    (stepNat 4 s.ext % 4 ≠ 0 → s.sp.toNat % 4 = 0 →
      let a := alignedTo .address (s.sp - BitVec.ofNat 24 (stepNat 4 s.ext))
      (CanLoad s .word a v → exec (.ldaLoadSpPreDec r) s = .fault fault) ∧
      (CanStore s .word a → exec (.ldaStoreSpPreDec r) s = .fault fault))

/-! ### Logic and arithmetic (spec 43_logic.md, 44_arithmetic.md) -/

/-- `and`, `or`, `xor`, `not` in their register and `sign7` forms (R250, R251 to R266). -/
def Obligations.LogicResults : Prop :=
  ∀ (s : State) (rd rs : Reg) (sign7 : BitVec 7),
    let a := firstNat16 s rd rs
    let b := secondNat16 s rs
    let x := (s.reg rd).toNat % 0x10000
    let y := signNat16 sign7 s.ext
    Completes (.andRR rd rs) s (LogicWritten rd (a &&& b) s) ∧
    Completes (.orRR rd rs) s (LogicWritten rd (a ||| b) s) ∧
    Completes (.xorRR rd rs) s (LogicWritten rd (a ^^^ b) s) ∧
    Completes (.notRR rd rs) s (LogicWritten rd (0xffff - b) s) ∧
    (AtMostOneExt s →
      Completes (.andImm rd sign7) s (LogicWritten rd (x &&& y) s) ∧
      Completes (.orImm rd sign7) s (LogicWritten rd (x ||| y) s) ∧
      Completes (.xorImm rd sign7) s (LogicWritten rd (x ^^^ y) s) ∧
      Completes (.notImm rd sign7) s (LogicWritten rd (0xffff - y) s))

/-- `add`, `adc`, `sub`, `sbc %rd,%rs`: the 16-bit result and C, V, Z, N (R270, R271, R274, R278, R282,
R286). -/
def Obligations.AddSubtractRegisterResults : Prop :=
  ∀ (s : State) (rd rs : Reg),
    let a := firstNat16 s rd rs
    let b := secondNat16 s rs
    Completes (.addRR rd rs) s (SumWritten rd a b 0 s) ∧
    Completes (.adcRR rd rs) s (SumWritten rd a b s.psr.c.toNat s) ∧
    Completes (.subRR rd rs) s (DifferenceWritten rd a b 0 s) ∧
    Completes (.sbcRR rd rs) s (DifferenceWritten rd a b s.psr.c.toNat s)

/-- `add`, `adc`, `sub`, `sbc %rd,imm7`: the immediate is zero-extended (R277, R281, R285, R289). -/
def Obligations.AddSubtractImmediateResults : Prop :=
  ∀ (s : State) (rd : Reg) (imm7 : BitVec 7), AtMostOneExt s →
    let a := (s.reg rd).toNat % 0x10000
    let b := immNat16 imm7 s.ext
    Completes (.addImm rd imm7) s (SumWritten rd a b 0 s) ∧
    Completes (.adcImm rd imm7) s (SumWritten rd a b s.psr.c.toNat s) ∧
    Completes (.subImm rd imm7) s (DifferenceWritten rd a b 0 s) ∧
    Completes (.sbcImm rd imm7) s (DifferenceWritten rd a b s.psr.c.toNat s)

/-- `cmp` and `cmc`: the flags of the subtraction and no register; the immediate is sign-extended (R290, R293,
R294, R297). -/
def Obligations.CompareResults : Prop :=
  ∀ (s : State) (rd rs : Reg) (sign7 : BitVec 7),
    let a := firstNat16 s rd rs
    let b := secondNat16 s rs
    let x := (s.reg rd).toNat % 0x10000
    let y := signNat16 sign7 s.ext
    Completes (.cmpRR rd rs) s (WritesPsr (differenceFlags s.psr a b 0) s) ∧
    Completes (.cmcRR rd rs) s (WritesPsr (differenceFlags s.psr a b s.psr.c.toNat) s) ∧
    (AtMostOneExt s →
      Completes (.cmpImm rd sign7) s (WritesPsr (differenceFlags s.psr x y 0) s) ∧
      Completes (.cmcImm rd sign7) s (WritesPsr (differenceFlags s.psr x y s.psr.c.toNat) s))

/-- The `/c` forms when C = 1 and the `/nc` forms when C = 0 do what the plain form does, but never write C
(R250, R272). -/
def Obligations.ConditionalFormsExecute : Prop :=
  ∀ (s : State) (rd rs : Reg), ∀ f ∈ conditionalForms rd rs,
    ∃ u, exec f.plain s = .next u ∧
      (s.psr.c = true → exec f.ifCarry s = .next { u with psr := { u.psr with c := s.psr.c } }) ∧
      (s.psr.c = false → exec f.ifNoCarry s = .next { u with psr := { u.psr with c := s.psr.c } })

/-- Otherwise they write no register and no flag and use up the pending `ext` (R153, R272). -/
def Obligations.ConditionalFormsSkip : Prop :=
  ∀ (s : State) (rd rs : Reg), ∀ f ∈ conditionalForms rd rs,
    (s.psr.c = false → Completes f.ifCarry s (WritesPsr s.psr s)) ∧
    (s.psr.c = true → Completes f.ifNoCarry s (WritesPsr s.psr s))

/-- `add.a` and `sub.a`: 24 bits, no flag; a result for SP loses bits 1:0 (R298 to R310). -/
def Obligations.AddressArithmeticResults : Prop :=
  ∀ (s : State) (rd rs : Reg) (imm7 : BitVec 7),
    let a := firstNat24 s (s.reg rd) rs
    let p := firstNat24 s s.sp rs
    let b := secondNat24 s rs
    let i := immNat24 imm7 s.ext
    Completes (.addaRR rd rs) s (WritesReg rd (BitVec.ofNat 24 (a + b)) s) ∧
    Completes (.subaRR rd rs) s (WritesReg rd (BitVec.ofNat 24 (a + 0x1000000 - b)) s) ∧
    Completes (.addaImm rd imm7) s (WritesReg rd (BitVec.ofNat 24 ((s.reg rd).toNat + i)) s) ∧
    Completes (.subaImm rd imm7) s (WritesReg rd (BitVec.ofNat 24 ((s.reg rd).toNat + 0x1000000 - i)) s) ∧
    Completes (.addaSpRs rs) s (WritesSp (BitVec.ofNat 24 ((p + b) / 4 * 4)) s) ∧
    Completes (.subaSpRs rs) s (WritesSp (BitVec.ofNat 24 ((p + 0x1000000 - b) / 4 * 4)) s) ∧
    Completes (.addaSpImm imm7) s (WritesSp (BitVec.ofNat 24 ((s.sp.toNat + i) / 4 * 4)) s) ∧
    Completes (.subaSpImm imm7) s (WritesSp (BitVec.ofNat 24 ((s.sp.toNat + 0x1000000 - i) / 4 * 4)) s)

/-- `cmp.a`: C is the borrow and Z the zero of the 24-bit difference; V and N are kept (R298, R311, R314). -/
def Obligations.AddressCompareResults : Prop :=
  ∀ (s : State) (rd rs : Reg) (imm7 : BitVec 7),
    let a := firstNat24 s (s.reg rd) rs
    let b := secondNat24 s rs
    let x := (s.reg rd).toNat
    let i := immNat24 imm7 s.ext
    Completes (.cmpaRR rd rs) s (WritesPsr { s.psr with c := decide (a < b), z := decide (a = b) } s) ∧
    Completes (.cmpaImm rd imm7) s (WritesPsr { s.psr with c := decide (x < i), z := decide (x = i) } s)

/-- The shifts: an amount of 1 or more gives the result and the last bit out in C (R320 to R327); after a shift
by 0 bits the value is kept in bits 15:0 and C is a free value, drawn there (R321; log entry 8). -/
def Obligations.ShiftResults : Prop :=
  ∀ (s : State) (rd rs : Reg) (imm7 : BitVec 7), ∀ f ∈ shiftForms s rd rs imm7,
    let k := shiftBits f.operand
    (k ≠ 0 → Completes f.instr s
      (WritesRegAndPsr rd (BitVec.ofNat 24 (f.result k)) (shiftFlags s.psr (f.result k) (f.lastOut k)) s)) ∧
    (k = 0 → Completes f.instr s fun t =>
      let v := (s.reg rd).toNat % 0x10000
      t.freeCount = s.freeCount + 1 ∧
        WritesRegAndPsr rd (BitVec.ofNat 24 v) (shiftFlags s.psr v (Config.freeCarry s.freeCount)) s
          { t with freeCount := s.freeCount })

/-- After `cmp %rd,%rs` without `ext` the ten conditions of R344 are the ten orders and equalities of the
operands, signed and unsigned (R315 item 3). -/
def Obligations.ComparisonDecidesConditions : Prop :=
  ∀ (s t : State) (rd rs : Reg), s.ext = .none → exec (.cmpRR rd rs) s = .next t →
    let a := (s.reg rd).toNat % 0x10000
    let b := (s.reg rs).toNat % 0x10000
    (Cond.gt.holds t.psr ↔ signed16 b < signed16 a) ∧ (Cond.ge.holds t.psr ↔ signed16 b ≤ signed16 a) ∧
    (Cond.lt.holds t.psr ↔ signed16 a < signed16 b) ∧ (Cond.le.holds t.psr ↔ signed16 a ≤ signed16 b) ∧
    (Cond.ugt.holds t.psr ↔ b < a) ∧ (Cond.uge.holds t.psr ↔ b ≤ a) ∧
    (Cond.ult.holds t.psr ↔ a < b) ∧ (Cond.ule.holds t.psr ↔ a ≤ b) ∧
    (Cond.eq.holds t.psr ↔ a = b) ∧ (Cond.ne.holds t.psr ↔ a ≠ b)

/-- R315 item 4: `add` of the low halves then `adc` of the high halves is the 32-bit sum with its carry out, and
`sub` then `sbc` the 32-bit difference with its borrow, in registers that do not overlap. -/
def Obligations.MultiWordArithmetic : Prop :=
  ∀ (s t u : State) (lo hi lo' hi' : Reg), s.ext = .none → lo ≠ hi → lo ≠ hi' →
    let data1 := (s.reg hi).toNat % 0x10000 * 0x10000 + (s.reg lo).toNat % 0x10000
    let data2 := (s.reg hi').toNat % 0x10000 * 0x10000 + (s.reg lo').toNat % 0x10000
    let result := (u.reg hi).toNat % 0x10000 * 0x10000 + (u.reg lo).toNat % 0x10000
    (exec (.addRR lo lo') s = .next t → exec (.adcRR hi hi') t = .next u →
      result = (data1 + data2) % 0x100000000 ∧ (u.psr.c = true ↔ 0xffffffff < data1 + data2)) ∧
    (exec (.subRR lo lo') s = .next t → exec (.sbcRR hi hi') t = .next u →
      result = (data1 + 0x100000000 - data2) % 0x100000000 ∧ (u.psr.c = true ↔ data1 < data2))

/-! ### Branches (spec 46_branch.md) -/

/-- The plain jumps: PC takes the target, its bit 0 dropped, and nothing else changes (R340, R345, R347, R349,
R351). -/
def Obligations.JumpResults : Prop :=
  ∀ (s : State) (rb : Reg) (imm7 : BitVec 7) (sign10 : BitVec 10),
    (∀ f ∈ jumps s rb imm7, exec f.plain s = .next { s with pc := even f.target, ext := .none }) ∧
    (AtMostOneExt s → exec (.jprImm sign10) s =
      .next { s with pc := even (relativeTarget s (rel10Int sign10 s.ext)), ext := .none })

/-- The delayed jumps: the slot instruction is next, the target is remembered, and no request but reset is
accepted before the slot; nothing else changes (R342, R346, R348, R350, R352). -/
def Obligations.DelayedJumpResults : Prop :=
  ∀ (s : State) (rb : Reg) (imm7 : BitVec 7) (sign10 : BitVec 10),
    (∀ f ∈ jumps s rb imm7, exec f.delayed s = .next { s with
      delay := some ⟨f.target, .jump⟩
      irqHold := max s.irqHold 1
      dbgHold := true
      pc := s.pc + 2
      ext := .none }) ∧
    (AtMostOneExt s → exec (.jprDelayedImm sign10) s = .next { s with
      delay := some ⟨relativeTarget s (rel10Int sign10 s.ext), .jump⟩
      irqHold := max s.irqHold 1
      dbgHold := true
      pc := s.pc + 2
      ext := .none })

/-- The plain conditional jumps: taken when the condition of R344 holds; not taken, they open mask interval (6)
(R353 to R371, R450). -/
def Obligations.ConditionalJumpResults : Prop :=
  ∀ (s : State) (sign7 : BitVec 7), ∀ f ∈ condJumps sign7 s.psr,
    exec f.plain s =
      if f.taken then .next { s with pc := even (relativeTarget s (rel7Int sign7 s.ext)), ext := .none }
      else .next { s with pc := s.pc + 2, ext := .none, irqHold := max s.irqHold 1 }

/-- The delayed conditional jumps: the flags are tested at the branch, the slot instruction always executes, and
PC then takes the target or goes on after the slot (R342, R354 to R372). -/
def Obligations.DelayedConditionalJumpResults : Prop :=
  ∀ (s : State) (sign7 : BitVec 7), ∀ f ∈ condJumps sign7 s.psr,
    exec f.delayed s = .next { s with
      delay := some ⟨if f.taken then relativeTarget s (rel7Int sign7 s.ext) else s.pc + 4, .jump⟩
      irqHold := max s.irqHold 1
      dbgHold := true
      pc := s.pc + 2
      ext := .none }

/-- The calls, plain and delayed: where the stack word can be stored, the return address is pushed and control
goes to the target, at once or after the slot (R341, R373 to R380). -/
def Obligations.CallResults : Prop :=
  ∀ (s : State) (rb : Reg) (imm7 : BitVec 7) (sign10 : BitVec 10), CanStore s .word (align4 (s.sp - 4)) →
    (∀ f ∈ calls s rb imm7,
      Completes f.plain s (CallsTo f.target s) ∧ Completes f.delayed s (CallsToDelayed f.target s)) ∧
    (AtMostOneExt s →
      Completes (.callImm sign10) s (CallsTo (relativeTarget s (rel10Int sign10 s.ext)) s) ∧
      Completes (.callDelayedImm sign10) s
        (CallsToDelayed (relativeTarget s (rel10Int sign10 s.ext)) s))

/-- `ret` and `ret.d`: PC comes from the popped word, whose top byte is ignored, SP goes up by 4 before the slot
(R341, R381, R382). -/
def Obligations.ReturnResults : Prop :=
  ∀ (s : State) (w : BitVec 32), CanLoad s .word s.sp w →
    let target := BitVec.ofNat 24 (w.toNat / 2 * 2)
    exec .ret s = .next { s with pc := target, sp := align4 (s.sp + 4), ext := .none } ∧
    exec .retDelayed s = .next { s with
      sp := align4 (s.sp + 4)
      delay := some ⟨target, .callOrReturn⟩
      irqHold := max s.irqHold 1
      dbgHold := true
      pc := s.pc + 2
      ext := .none }

/-- `reti` and `reti.d`: PSR comes from the top byte of the popped word, IE takes effect at once, and the holds
of interval (4) open: one boundary, two for `reti.d` (R383, R384, R450, R503). -/
def Obligations.InterruptReturnResults : Prop :=
  ∀ (s : State) (w : BitVec 32), CanLoad s .word s.sp w →
    let target := BitVec.ofNat 24 (w.toNat / 2 * 2)
    let p := psrOfNat (w.toNat / 0x1000000)
    exec .reti s = .next { s with
      pc := target
      sp := align4 (s.sp + 4)
      psr := p
      ieEffective := p.ie
      ieLag := 0
      irqHold := max s.irqHold 1
      ext := .none } ∧
    exec .retiDelayed s = .next { s with
      sp := align4 (s.sp + 4)
      psr := p
      ieEffective := p.ie
      ieLag := 0
      delay := some ⟨target, .callOrReturn⟩
      irqHold := 2
      dbgHold := true
      pc := s.pc + 2
      ext := .none }

/-- `int` and `intl`: in user mode the old PSR and the next address are pushed, IE is cleared at once, IL takes
`imm3` for `intl`, PC comes from the vector table, and interval (5) opens; in debug mode they are a fault
(R385, R386, R463). -/
def Obligations.SoftwareInterruptResults : Prop :=
  ∀ (s : State) (vec : BitVec 5) (level : BitVec 3),
    (s.dcr.dm = true → exec (.intImm vec) s = .fault .interruptInDebugMode ∧
      exec (.intlImm vec level) s = .fault .interruptInDebugMode) ∧
    (∀ u w, s.dcr.dm = false →
      memWrite s .word (align4 (s.sp - 4)) (savedWord s.psr (s.pc + 2)) = .next u →
      CanLoad u .word (s.ttbr + BitVec.ofNat 24 (4 * vec.toNat)) w →
      let t := { u with
        pc := BitVec.ofNat 24 (w.toNat / 2 * 2)
        sp := align4 (s.sp - 4)
        ext := .none
        irqHold := max s.irqHold 1
        ieEffective := false
        ieLag := 0 }
      StoredAt .word (align4 (s.sp - 4)) (savedWord s.psr (s.pc + 2)) s u ∧
      exec (.intImm vec) s = .next { t with psr := { s.psr with ie := false } } ∧
      exec (.intlImm vec level) s = .next { t with psr := { s.psr with ie := false, il := level } })

/-- `brk` and `retd`: `brk` enters debug mode from user mode, saving PSR, the next address and R0 at DBRAM and
clearing IE; `retd` leaves it, restoring them; in the other mode each is a fault (R387, R388, R462). That `brk` also
clears `dbg_latch` and `ie_lag` is deduced (log entry 17). -/
def Obligations.DebugInstructionResults : Prop :=
  ∀ s : State,
    (s.dcr.dm = true → exec .brk s = .fault .brkInDebugMode) ∧
    (s.dcr.dm = false → exec .retd s = .fault .retdInUserMode) ∧
    (∀ u1 u2, s.dcr.dm = false →
      memWrite s .word s.dbram (savedWord s.psr (s.pc + 2)) = .next u1 →
      memWrite u1 .word (s.dbram + 4) (zeroTop (s.reg .r0)) = .next u2 →
      StoredAt .word s.dbram (savedWord s.psr (s.pc + 2)) s u1 ∧
      StoredAt .word (s.dbram + 4) (zeroTop (s.reg .r0)) u1 u2 ∧
      exec .brk s = .next { u2 with
        psr := { s.psr with ie := false }
        ieEffective := false
        ieLag := 0
        dcr := { u2.dcr with dm := true }
        dbgLatch := false
        pc := 0xfffc00
        ext := .none
        delay := none }) ∧
    (∀ w w0, s.dcr.dm = true → CanLoad s .word s.dbram w → CanLoad s .word (s.dbram + 4) w0 →
      Completes .retd s fun t =>
        t.reg .r0 = BitVec.ofNat 24 w0.toNat ∧ KeepsRegs [.r0] s t ∧
        t = { s with
          regs := t.regs
          pc := BitVec.ofNat 24 (w.toNat / 2 * 2)
          psr := psrOfNat (w.toNat / 0x1000000)
          ieEffective := (psrOfNat (w.toNat / 0x1000000)).ie
          ieLag := 0
          dcr := { s.dcr with dm := false }
          irqHold := max s.irqHold 1
          dbgHold := true
          ext := .none })

/-! ### System control and the coprocessor (spec 47_system.md, 49_coprocessor.md) -/

/-- `nop`, `halt`, `slp`, `ei`, `di` (R401 to R405). The lag of `ei` and `di` is a free value of 1, 2 or 3, drawn
there (R503, log entry 9). -/
def Obligations.SystemControlResults : Prop :=
  ∀ s : State,
    let stopped (mode : RunState) : State := { s with
      pc := s.pc + 2
      ext := .none
      runState := mode
      ieEffective := s.psr.ie
      ieLag := 0
      irqHold := max s.irqHold 1 }
    let enabled (value : Bool) (lag : Nat) : State := { s with
      pc := s.pc + 2
      ext := .none
      psr := { s.psr with ie := value }
      ieLag := lag
      irqHold := max s.irqHold 1
      freeCount := s.freeCount + 1 }
    exec .nop s = .next { s with pc := s.pc + 2, ext := .none } ∧
    exec .halt s = .next (stopped .halted) ∧ exec .slp s = .next (stopped .sleeping) ∧
    (∃ lag, 1 ≤ lag ∧ lag ≤ 3 ∧ exec .ei s = .next (enabled true lag)) ∧
    (∃ lag, 1 ≤ lag ∧ lag ≤ 3 ∧ exec .di s = .next (enabled false lag))

/-- `ld.cw`, `ld.ca`, `ld.cf`: the command reaches the coprocessor with both data as they were before; `ld.cw`
changes nothing else, `ld.cf` takes the flags and `ld.ca` the result and the flags, free values of the
coprocessor (R420 to R426, log entry 10). -/
def Obligations.CoprocessorResults : Prop :=
  ∀ (s : State) (rd rs : Reg) (imm7 : BitVec 7),
    (∀ f ∈ coproForms .ldcwRR .ldcwImm s rd rs imm7,
      exec f.instr s = .next { s with
        copro := ⟨.cw, s.reg rd, f.data1⟩ :: s.copro, pc := s.pc + 2, ext := .none }) ∧
    (∀ f ∈ coproForms .ldcfRR .ldcfImm s rd rs imm7,
      let history := ⟨.cf, s.reg rd, f.data1⟩ :: s.copro
      exec f.instr s = .next { s with
        copro := history
        psr := coproPsr s.psr (Config.coproFlags s.freeCount history)
        freeCount := s.freeCount + 1
        pc := s.pc + 2
        ext := .none }) ∧
    (∀ f ∈ coproForms .ldcaRR .ldcaImm s rd rs imm7,
      let history := ⟨.ca, s.reg rd, f.data1⟩ :: s.copro
      Completes f.instr s fun t =>
        t.reg rd = Config.coproResult s.freeCount history ∧ KeepsRegs [rd] s t ∧
        t = { s with
          regs := t.regs
          copro := history
          psr := coproPsr s.psr (Config.coproFlags s.freeCount history)
          freeCount := s.freeCount + 1
          pc := s.pc + 2
          ext := .none })

/-! ### Interrupts, reset and the step (spec 60_exceptions.md, 70_reset_and_hazards.md) -/

/-- R440: interrupt entry. PSR as it was and the return address are pushed, IE is cleared at once, IL takes the
level of a maskable interrupt only, and PC comes from the vector table (R436). -/
def Obligations.InterruptEntryEffect : Prop :=
  ∀ (s u : State) (kind : EntryKind) (v : BitVec 5) (ret : Word) (w : BitVec 32),
    memWrite s .word (align4 (s.sp - 4)) (savedWord s.psr ret) = .next u →
    CanLoad u .word (s.ttbr + BitVec.ofNat 24 (4 * v.toNat)) w →
    StoredAt .word (align4 (s.sp - 4)) (savedWord s.psr ret) s u ∧
    interruptEntry s kind v ret = .next { u with
      sp := align4 (s.sp - 4)
      psr := { s.psr with
        ie := false
        il := match kind with
          | .maskable level => level
          | .misaligned | .nmi => s.psr.il }
      ieEffective := false
      ieLag := 0
      pc := BitVec.ofNat 24 (w.toNat / 2 * 2)
      ext := .none
      delay := none
      accepted := ⟨kind, v⟩ :: s.accepted }

/-- R460: debug entry. PSR and the return address go to DBRAM, R0 to DBRAM + 4; SP and PSR are not changed. -/
def Obligations.DebugEntryEffect : Prop :=
  ∀ (s u1 u2 : State) (ret : Word),
    memWrite s .word s.dbram (savedWord s.psr ret) = .next u1 →
    memWrite u1 .word (s.dbram + 4) (zeroTop (s.reg .r0)) = .next u2 →
    StoredAt .word s.dbram (savedWord s.psr ret) s u1 ∧
    StoredAt .word (s.dbram + 4) (zeroTop (s.reg .r0)) u1 u2 ∧
    debugEntry s ret = .next { u2 with
      dcr := { u2.dcr with dm := true }
      dbgLatch := false
      pc := 0xfffc00
      ext := .none
      delay := none }

/-- R435: which request a boundary accepts, in the priority order of R432, and what the boundary counts down and
latches. -/
def Obligations.BoundaryRequestPriority : Prop :=
  ∀ (inp : Inputs) (s : State),
    let hit := s.dcr.dm = false ∧
      (s.dcr.ibe0 = true ∧ s.pc = s.ibar0 ∨ s.dcr.ibe1 = true ∧ s.pc = s.ibar1)
    let debug := s.dbgHold = false ∧ s.dcr.dm = false ∧ (s.dbgLatch = true ∨ hit ∨ s.dcr.dr = true)
    let open' := s.irqHold = 0 ∧ s.dcr.dm = false
    let nmi := open' ∧ inp.nmi = true ∧ s.nmiArmed = true
    let r := selectRequest inp s
    (r.1 = some .debug ↔ debug) ∧
    (r.1 = some .nmi ↔ ¬ debug ∧ nmi) ∧
    (∀ level vec, r.1 = some (.maskable level vec) ↔
      ¬ debug ∧ ¬ nmi ∧ open' ∧ inp.maskable = some ⟨level, vec⟩ ∧ s.ieEffective = true ∧
        s.psr.il.toNat < level.toNat) ∧
    (r.2.dbgLatch = true ↔ s.dbgLatch = true ∨ hit) ∧
    r.2 = { s with
      irqHold := s.irqHold - 1
      dbgHold := false
      ieLag := s.ieLag - 1
      ieEffective := if s.ieLag = 1 then s.psr.ie else s.ieEffective
      dbgLatch := r.2.dbgLatch }

/-- R430 C: an accepted request is entered in a step of its own, with the address of the next instruction
(R441). -/
def Obligations.StepAcceptsRequest : Prop :=
  ∀ (s b : State) (r : Request), (inputsNow s).reset = false → awake s.runState (inputsNow s) = true →
    selectRequest (inputsNow s) (applyInputs (inputsNow s) (consumeInputs s)) = (some r, b) →
    step s = match r with
      | .debug => debugEntry b s.pc
      | .nmi => interruptEntry b .nmi 2 s.pc
      | .maskable level vec => interruptEntry b (.maskable level) vec s.pc

/-- A step runs the decoded instruction (R430 D, E), fetched from memory or from the debug firmware: outside a slot
it is `exec` of it; in a slot, of an instruction that R343 does not forbid there, `exec` with no `ext` pending
and then the remembered target; the single-step request follows. An instruction that R343 forbids is a fault
in a slot. -/
def Obligations.StepRunsDecodedInstruction : Prop :=
  ∀ (i : Instr) (s : State), RunsInstruction s → CodeAtPc i (afterBoundary s) →
    let b := afterBoundary s
    let latched (t : State) : State :=
      { t with dbgLatch := t.dbgLatch || (t.dcr.se && !b.dcr.dm && !t.dcr.dm) }
    (b.delay = none →
      step s = match exec i b with
        | .next t => .next (latched t)
        | .fault e => .fault e
        | .refused e => .refused e) ∧
    (∀ d, b.delay = some d → ¬ ForbiddenInSlot i →
      step s = match exec i { b with ext := .none } with
        | .next t => .next (latched { t with delay := none, pc := even d.target })
        | .fault e => .fault e
        | .refused e => .refused e) ∧
    (∀ d, b.delay = some d → ForbiddenInSlot i → step s = .fault .illegalDelaySlot)

/-- R402, R403, R430 B: a halted or sleeping core that no event wakes and no reset ends stays as it is; no input is
applied in such a step (log entry 14). -/
def Obligations.PowerDownWaits : Prop :=
  ∀ s : State, (inputsNow s).reset = false → ¬ GoesOn s (inputsNow s) →
    step s = .next { s with env := s.env.tail }

/-- A reset clears every register and hidden value in any state, loads PC from entry 0 of the vector table and
leaves memory, TTBR and DBRAM as they were (R490). That `copro_state` is then the empty history is the model's
choice (log entry 10), as R490 item 5 leaves it to `COPRO`; that the step uses up one entry of the inputs
and applies none of them (log entry 14) and keeps the record of acceptances and the draw counter (log
entries 18 and 22) is the model's too. -/
def Obligations.ResetSequenceEffect : Prop :=
  ∀ (s : State) (w : BitVec 32), (inputsNow s).reset = true → s.ttbr < Config.coreAreaBase →
    CanLoad s .word s.ttbr w →
    step s = .next { s with
      regs := ⟨0, 0, 0, 0, 0, 0, 0, 0⟩
      pc := BitVec.ofNat 24 (w.toNat / 2 * 2)
      sp := 0
      psr := psrOfNat 0x00
      dcr := ⟨false, false, false, false, false⟩
      ibar0 := 0
      ibar1 := 0
      ssr := ⟨true, true, false⟩
      sdr := 0x00
      ext := .none
      delay := none
      irqHold := 0
      dbgHold := false
      dbgLatch := false
      ieEffective := false
      ieLag := 0
      runState := .running
      nmiArmed := false
      copro := []
      env := s.env.tail }

/-- R50: the values of the machine right after reset, PC read from the vector table. What the table holds there is
the model's choice (log entries 1, 3 and 5). -/
def Obligations.ResetStateValues : Prop :=
  let s := State.reset
  (∀ r, s.reg r = 0x000000) ∧ s.sp = 0x000000 ∧ psrToNat s.psr = 0x00 ∧
  (∃ w, memRead s .word s.ttbr = .next w ∧ s.pc = BitVec.ofNat 24 (w.toNat / 2 * 2)) ∧
  memRead s .byte 0xffff84 = .next 0x10 ∧ memRead s .byte 0xffffa0 = .next 0x00 ∧
  memRead s .byte 0xffffc0 = .next 0x06 ∧ s.ibar0 = 0x000000 ∧ s.ibar1 = 0x000000 ∧ s.sdr = 0x00 ∧
  s.ext = .none ∧ s.delay = none ∧ s.irqHold = 0 ∧ s.dbgHold = false ∧ s.dbgLatch = false ∧
  s.ieEffective = false ∧ s.ieLag = 0 ∧ s.runState = .running ∧ s.nmiArmed = false

/-- The state after reset is well formed; its parameters are the model's choice (log entries 3 to 5). -/
def Obligations.ResetIsWellFormed : Prop := WellFormedState State.reset

/-- Every step keeps the well-formed states: the fixed bits of PC, SP and the break addresses, the canonical
memory, the ranges of the hidden counters, and the holds that keep an `ext` with its target and a delayed
branch with its slot. -/
def Obligations.StepKeepsWellFormedState : Prop :=
  ∀ s t : State, WellFormedState s → step s = .next t → WellFormedState t

/-- R450 items 1 and 2: between an `ext` and its target, and between a delayed branch and its slot, no request but
reset is ever accepted, whatever the environment presents. -/
def Obligations.PrefixAndSlotAreNotInterrupted : Prop :=
  ∀ (s : State) (inp : Inputs), WellFormedState s → (s.ext ≠ .none ∨ s.delay ≠ none) →
    (selectRequest inp (applyInputs inp (consumeInputs s))).1 = none

/-- No step changes TTBR, DBRAM, the memory map, the code region or the debug firmware (R4, R34, R36). -/
def Obligations.ParametersNeverChange : Prop :=
  ∀ s t : State, step s = .next t →
    t.ttbr = s.ttbr ∧ t.dbram = s.dbram ∧ t.memMap = s.memMap ∧ t.codeRegion = s.codeRegion ∧
      t.debugFw = s.debugFw

/-- Which instructions write the interrupt level and the mode: IL only `intl`, `reti`, `reti.d` and `retd` (R26),
DM only `brk`, which sets it, and `retd`, which clears it (R37, R470). -/
def Obligations.LevelAndModeWriters : Prop :=
  ∀ (i : Instr) (s t : State), exec i s = .next t →
    (t.psr.il ≠ s.psr.il → (∃ v l, i = .intlImm v l) ∨ i = .reti ∨ i = .retiDelayed ∨ i = .retd) ∧
    (t.dcr.dm ≠ s.dcr.dm → i = .brk ∧ t.dcr.dm = true ∨ i = .retd ∧ t.dcr.dm = false)

/-- `int` or `intl` and then `reti` with nothing between them restore PSR, SP and the general registers and go on
after the `int`, whatever the vector and the level (R383, R385, R386, R449). `ie_effective` is then the IE of
that PSR, which it need not have been before, and of memory only the stack word can differ. -/
def Obligations.InterruptThenReturnRestores : Prop :=
  ∀ (s t : State) (i : Instr) (v : BitVec 5) (l : BitVec 3), WellFormedState s →
    align4 (s.sp - 4) < Config.coreAreaBase → (i = .intImm v ∨ i = .intlImm v l) → exec i s = .next t →
    ∃ u, exec .reti t = .next u ∧ u.psr = s.psr ∧ u.sp = s.sp ∧ u.pc = s.pc + 2 ∧ u.regs = s.regs ∧
      u.ieEffective = s.psr.ie ∧ KeepsMemoryOutside (s.sp - 4).toNat 4 s u

/-- A plain call and then `ret` with nothing between them: control is after the call and SP is as it was (R341,
R373, R381). -/
def Obligations.CallThenReturnRestores : Prop :=
  ∀ (s t : State) (i : Instr) (rb : Reg) (imm7 : BitVec 7) (sign10 : BitVec 10), WellFormedState s →
    align4 (s.sp - 4) < Config.coreAreaBase →
    i ∈ [Instr.callImm sign10, .callReg rb, .callaImm imm7, .callaReg rb] → exec i s = .next t →
    ∃ u, exec .ret t = .next u ∧ u.sp = s.sp ∧ u.pc = s.pc + 2 ∧ u.psr = s.psr ∧ u.regs = s.regs

/-! ### Fetch and wake (spec 60_exceptions.md R430 B to D, 47_system.md R402, R403) -/

/-- Where a fetch stops: in the core-reserved area without a debug firmware the run ends (R430 D, log entry 15);
below it, at the first of the two bytes of the code that the map does not hold as RAM or ROM (R62, R67).
That the lower byte decides where both stop the fetch, and the refusal of a device, are the model's choices
(log entries 11 and 12). -/
def Obligations.FetchStops : Prop :=
  ∀ s : State, RunsInstruction s →
    let b := afterBoundary s
    (Config.coreAreaBase ≤ b.pc → b.debugFw = none → step s = .refused .enteredDebugFirmware) ∧
    (∀ i < 2, b.pc < Config.coreAreaBase →
      (∀ j < i, kindAt b.memMap (b.pc.toNat + j) = some .ram ∨ kindAt b.memMap (b.pc.toNat + j) = some .rom) →
      (kindAt b.memMap (b.pc.toNat + i) = none → step s = .fault .unmappedRead) ∧
      (kindAt b.memMap (b.pc.toNat + i) = some .device → step s = .refused .deviceAccess))

/-- A running core, and a halted or sleeping one that its wake event wakes, comes to the instruction boundary
running, whatever IE and IL (R402, R403, R430 B, R451), with the inputs taken: a forced break sets DR (R461),
and the serial link drives TDBE, RDBF and SDR (R39, R40). Nothing else has changed. That the inputs act there
is the model's choice (log entry 14). -/
def Obligations.WakeAndInputs : Prop :=
  ∀ s : State, (inputsNow s).reset = false → GoesOn s (inputsNow s) →
    let inp := inputsNow s
    let u : State := { s with
      runState := .running
      dcr := { s.dcr with dr := s.dcr.dr || inp.debugRequest }
      ssr := { s.ssr with
        tdbe := match inp.serialTdbe with
          | some x => x
          | none => s.ssr.tdbe
        rdbf := match inp.serialRdbf with
          | some x => x
          | none => s.ssr.rdbf }
      sdr := match inp.serialData with
        | some x => x
        | none => s.sdr
      env := s.env.tail }
    applyInputs inp (consumeInputs s) = u ∧
    step s = match selectRequest inp u with
      | (some r, b) => acceptRequest r b
      | (none, b) => runNext b
end

