-- ==== Sys2Proof/Laws/Codec.lean ====
section
/-!
SUPPORT. The fields of a code and of a register number read back as they were written.
-/

namespace Sys2Proof

@[simp] theorem Reg.ofBits_bits (r : Reg) : Reg.ofBits r.bits = r := by cases r <;> rfl

@[simp] theorem Reg.bits_ofBits (b : BitVec 3) : (Reg.ofBits b).bits = b := by revert b; decide

/-- Putting one bit vector above another, as numbers. -/
theorem append_toNat {n m : Nat} (x : BitVec n) (y : BitVec m) :
    (x ++ y).toNat = x.toNat * 2 ^ m + y.toNat := by
  rw [BitVec.toNat_append, ← Nat.shiftLeft_add_eq_or_of_lt y.isLt, Nat.shiftLeft_eq]

/-- Cutting a field out of a bit vector, as numbers. -/
theorem extract_toNat {n : Nat} (x : BitVec n) (lo len : Nat) :
    (x.extractLsb' lo len).toNat = x.toNat / 2 ^ lo % 2 ^ len := by
  rw [BitVec.extractLsb'_toNat, Nat.shiftRight_eq_div_pow]

/-- One bit of a bit vector, from its number. -/
theorem getLsbD_div {n : Nat} (x : BitVec n) (i : Nat) : x.getLsbD i = decide (x.toNat / 2 ^ i % 2 = 1) :=
  Nat.testBit_eq_decide_div_mod_eq

theorem packWord_toNat (hi : BitVec 6) (f3 : BitVec 3) (op4 : BitVec 4) (lo3 : BitVec 3) :
    (packWord hi f3 op4 lo3).toNat = ((hi.toNat * 8 + f3.toNat) * 16 + op4.toNat) * 8 + lo3.toNat := by
  have h := append_toNat (hi ++ f3 ++ op4) lo3
  rw [append_toNat (hi ++ f3) op4, append_toNat hi f3] at h
  exact h

/-- Cutting a packed code gives the fields it was packed from. -/
@[simp] theorem splitWord_packWord (hi : BitVec 6) (f3 : BitVec 3) (op4 : BitVec 4) (lo3 : BitVec 3) :
    splitWord (packWord hi f3 op4 lo3) = ⟨hi, f3, op4, lo3⟩ := by
  have h := packWord_toNat hi f3 op4 lo3
  have h1 := f3.isLt
  have h2 := op4.isLt
  have h3 := lo3.isLt
  have h4 := hi.isLt
  simp only [splitWord, Fields.mk.injEq, ← BitVec.toNat_inj, extract_toNat, h]
  omega

/-- Packing the fields of a code gives the code. -/
@[simp] theorem packWord_splitWord (w : BitVec 16) :
    packWord (splitWord w).hi (splitWord w).f3 (splitWord w).op4 (splitWord w).lo3 = w := by
  have h := w.isLt
  simp only [← BitVec.toNat_inj, packWord_toNat, splitWord, extract_toNat]
  omega

/-- The bytes of a code make the code. -/
@[simp] theorem wordOfBytes_bytes (w : BitVec 16) :
    wordOfBytes (w.extractLsb' 0 8) (w.extractLsb' 8 8) = w := by
  have h := w.isLt
  have h1 := append_toNat (w.extractLsb' 8 8) (w.extractLsb' 0 8)
  rw [extract_toNat, extract_toNat] at h1
  rw [← BitVec.toNat_inj]
  exact h1.trans (by omega)

/-- The parts of a 7-bit field make the field. -/
@[simp] theorem imm7_parts (v : BitVec 7) : v.extractLsb' 3 4 ++ v.extractLsb' 0 3 = v := by
  revert v; decide

/-- The parts of a 10-bit field make the field. -/
@[simp] theorem imm10_parts (v : BitVec 10) :
    v.extractLsb' 7 3 ++ v.extractLsb' 3 4 ++ v.extractLsb' 0 3 = v := by
  have h := v.isLt
  have h1 := append_toNat (v.extractLsb' 7 3 ++ v.extractLsb' 3 4) (v.extractLsb' 0 3)
  rw [append_toNat (v.extractLsb' 7 3), extract_toNat, extract_toNat, extract_toNat] at h1
  rw [← BitVec.toNat_inj]
  exact h1.trans (by omega)

/-- The parts of a 13-bit field make the field. -/
@[simp] theorem imm13_parts (v : BitVec 13) :
    v.extractLsb' 10 3 ++ v.extractLsb' 7 3 ++ v.extractLsb' 3 4 ++ v.extractLsb' 0 3 = v := by
  have h := v.isLt
  have h1 := append_toNat (v.extractLsb' 10 3 ++ v.extractLsb' 7 3 ++ v.extractLsb' 3 4) (v.extractLsb' 0 3)
  rw [append_toNat (v.extractLsb' 10 3 ++ v.extractLsb' 7 3), append_toNat (v.extractLsb' 10 3),
    extract_toNat, extract_toNat, extract_toNat, extract_toNat] at h1
  rw [← BitVec.toNat_inj]
  exact h1.trans (by omega)

/-- The high three bits of a format EXT class are the top bits of its immediate (R100). -/
@[simp] theorem ext_class_low (b : BitVec 3) : (0b010#3 ++ b).extractLsb' 0 3 = b := by revert b; decide

/-- The parts of a vector number make the number (R102). -/
@[simp] theorem imm5_parts (v : BitVec 5) (sel : BitVec 2) :
    v.extractLsb' 1 4 ++ (v.extractLsb' 0 1 ++ sel).extractLsb' 2 1 = v := by revert v sel; decide

/-- The selector of format INT (R102). -/
@[simp] theorem int_selector (b : BitVec 1) (sel : BitVec 2) : (b ++ sel).extractLsb' 0 2 = sel := by
  revert b sel; decide

end Sys2Proof
end

