-- ==== Sys2Proof/Laws/Memory.lean ====
section
/-!
SUPPORT. The byte memory: a write is read back, leaves every other byte alone and keeps the canonical
form; the same for the wider stores, and what a wide load sees.
-/

namespace Sys2Proof.Machine

theorem Memory.read_consByte (x : Nat) (v : Byte) (m : Memory) (y : Nat) (hm : m.read x = unlistedByte) :
    (Memory.consByte x v m).read y = if y = x then v else m.read y := by
  unfold Memory.consByte
  by_cases hv : v = unlistedByte <;> by_cases hy : y = x <;> simp_all [Memory.read, eq_comm]

theorem Memory.read_consByte_other (x : Nat) (v : Byte) (m : Memory) (y : Nat) (h : y ≠ x) :
    (Memory.consByte x v m).read y = m.read y := by
  unfold Memory.consByte
  split
  · rfl
  · simp [Memory.read, Ne.symm h]

/-- A write leaves every other byte alone, whatever the form of the memory. -/
theorem Memory.read_write_other (m : Memory) (x : Nat) (v : Byte) (y : Nat) (h : y ≠ x) :
    (m.write x v).read y = m.read y := by
  induction m with
  | nil => exact Memory.read_consByte_other x v [] y h
  | cons c m ih =>
    obtain ⟨a, b⟩ := c
    unfold Memory.write
    split
    · exact Memory.read_consByte_other x v _ y h
    · split
      · rename_i h2
        subst h2
        rw [Memory.read_consByte_other _ v m y h]
        simp [Memory.read, Ne.symm h]
      · simp [Memory.read, ih]

theorem Memory.read_below (lo : Nat) (m : Memory) (h : Memory.wfFrom lo m = true) (x : Nat) (hx : x < lo) :
    m.read x = unlistedByte := by
  induction m generalizing lo with
  | nil => rfl
  | cons c m ih =>
    obtain ⟨a, b⟩ := c
    simp only [Memory.wfFrom, Bool.and_eq_true, decide_eq_true_eq] at h
    simp only [Memory.read]
    rw [if_neg (by omega)]
    exact ih (a + 1) h.2 (by omega)

theorem Memory.wfFrom_mono (lo lo' : Nat) (m : Memory) (h : Memory.wfFrom lo m = true) (hle : lo' ≤ lo) :
    Memory.wfFrom lo' m = true := by
  cases m with
  | nil => rfl
  | cons c m =>
    obtain ⟨a, b⟩ := c
    simp only [Memory.wfFrom, Bool.and_eq_true, decide_eq_true_eq] at h ⊢
    exact ⟨⟨⟨by omega, h.1.1.2⟩, h.1.2⟩, h.2⟩

theorem Memory.wfFrom_consByte (lo x : Nat) (v : Byte) (m : Memory) (hlo : lo ≤ x) (hx : x < 2 ^ 24)
    (h : Memory.wfFrom (x + 1) m = true) : Memory.wfFrom lo (Memory.consByte x v m) = true := by
  unfold Memory.consByte
  split
  · exact Memory.wfFrom_mono _ _ _ h (by omega)
  · simp only [Memory.wfFrom, Bool.and_eq_true, decide_eq_true_eq, bne_iff_ne]
    exact ⟨⟨⟨hlo, hx⟩, by assumption⟩, h⟩

theorem Memory.wfFrom_write (lo : Nat) (m : Memory) (x : Nat) (v : Byte) (h : Memory.wfFrom lo m = true)
    (hlo : lo ≤ x) (hx : x < 2 ^ 24) : Memory.wfFrom lo (m.write x v) = true := by
  induction m generalizing lo with
  | nil => exact Memory.wfFrom_consByte lo x v [] hlo hx rfl
  | cons c m ih =>
    obtain ⟨a, b⟩ := c
    have h0 := h
    simp only [Memory.wfFrom, Bool.and_eq_true, decide_eq_true_eq] at h
    unfold Memory.write
    split
    · refine Memory.wfFrom_consByte lo x v _ hlo hx ?_
      simp only [Memory.wfFrom, Bool.and_eq_true, decide_eq_true_eq]
      exact ⟨⟨⟨by omega, h.1.1.2⟩, h.1.2⟩, h.2⟩
    · split
      · rename_i h2
        subst h2
        exact Memory.wfFrom_consByte lo a v m hlo hx h.2
      · simp only [Memory.wfFrom, Bool.and_eq_true, decide_eq_true_eq]
        exact ⟨⟨⟨h.1.1.1, h.1.1.2⟩, h.1.2⟩, ih (a + 1) h.2 (by omega)⟩

/-- A byte write keeps the canonical form. -/
theorem Memory.wf_write (m : Memory) (x : Nat) (v : Byte) (h : m.wf = true) (hx : x < 2 ^ 24) :
    (m.write x v).wf = true :=
  Memory.wfFrom_write 0 m x v h (Nat.zero_le x) hx

/-- A byte written to a canonical memory is read back. -/
theorem Memory.read_write_self (m : Memory) (x : Nat) (v : Byte) (h : m.wf = true) :
    (m.write x v).read x = v := by
  have key : ∀ lo, Memory.wfFrom lo m = true → (m.write x v).read x = v := by
    intro lo h
    induction m generalizing lo with
    | nil => rw [Memory.write, Memory.read_consByte x v [] x rfl, if_pos rfl]
    | cons c m ih =>
      obtain ⟨a, b⟩ := c
      have h0 := h
      simp only [Memory.wfFrom, Bool.and_eq_true, decide_eq_true_eq] at h
      unfold Memory.write
      split
      · rename_i hlt
        have hm : Memory.read ((a, b) :: m) x = unlistedByte := by
          simp only [Memory.read]
          rw [if_neg (by omega)]
          exact Memory.read_below (a + 1) m h.2 x (by omega)
        rw [Memory.read_consByte x v _ x hm, if_pos rfl]
      · split
        · rename_i h2
          subst h2
          rw [Memory.read_consByte a v m a (Memory.read_below (a + 1) m h.2 a (by omega)), if_pos rfl]
        · rename_i h2
          simp only [Memory.read]
          rw [if_neg h2]
          exact ih (Memory.wfFrom_mono _ 0 m h.2 (Nat.zero_le _)) (a + 1) h.2
  exact key 0 h

theorem Memory.read_write (m : Memory) (x : Nat) (v : Byte) (y : Nat) (h : m.wf = true) :
    (m.write x v).read y = if y = x then v else m.read y := by
  by_cases hy : y = x
  · subst hy; simp [Memory.read_write_self m y v h]
  · simp [hy, Memory.read_write_other m x v y hy]

/-! ### Wider stores -/

/-- A store leaves every byte outside its own alone. -/
theorem storeBytes_read_other (m : Memory) (a : Nat) (v : BitVec 32) (w : Width) (x : Nat)
    (h : x < a ∨ a + w.bytes ≤ x) : (storeBytes m a v w).read x = m.read x := by
  cases w <;> simp only [storeBytes, Width.bytes] at h ⊢ <;>
    repeat rw [Memory.read_write_other _ _ _ _ (by omega)]

/-- A store to a canonical memory is read back byte by byte. -/
theorem storeBytes_read_own (m : Memory) (a : Nat) (v : BitVec 32) (w : Width) (h : m.wf = true)
    (ha : a + w.bytes ≤ 2 ^ 24) (i : Nat) (hi : i < w.bytes) :
    (storeBytes m a v w).read (a + i) = byteOf v i := by
  cases w <;> simp only [Width.bytes] at ha hi
  · obtain rfl : i = 0 := by omega
    exact Memory.read_write_self m a _ h
  · have h1 := Memory.wf_write m a (byteOf v 0) h (by omega)
    interval_cases i <;> simp [storeBytes, Memory.read_write, h, h1]
  · have h1 := Memory.wf_write m a (byteOf v 0) h (by omega)
    have h2 := Memory.wf_write _ (a + 1) (byteOf v 1) h1 (by omega)
    have h3 := Memory.wf_write _ (a + 2) (byteOf v 2) h2 (by omega)
    interval_cases i <;> simp [storeBytes, Memory.read_write, h, h1, h2, h3]

/-- A store keeps the canonical form. -/
theorem storeBytes_wf (m : Memory) (a : Nat) (v : BitVec 32) (w : Width) (h : m.wf = true)
    (ha : a + w.bytes ≤ 2 ^ 24) : (storeBytes m a v w).wf = true := by
  cases w <;> simp only [Width.bytes] at ha <;> simp only [storeBytes]
  · exact Memory.wf_write m a _ h (by omega)
  · exact Memory.wf_write _ _ _ (Memory.wf_write m a _ h (by omega)) (by omega)
  · exact Memory.wf_write _ _ _ (Memory.wf_write _ _ _ (Memory.wf_write _ _ _
      (Memory.wf_write m a _ h (by omega)) (by omega)) (by omega)) (by omega)

/-- Memory after reset lists nothing and is canonical. -/
theorem reset_memory_wf : State.reset.mem.wf = true := rfl

end Sys2Proof.Machine
end

