-- ==== Sys2Proof/Laws/State.lean ====
section
/-!
SUPPORT. What each named update of the state does to each field, one lemma per field per update, true by
unfolding. Proofs cite these through `simp` and never unfold an update.
-/

namespace Sys2Proof.Machine

/-! ### `setReg` -/

@[simp] theorem setReg_regs (s : State) (i : Reg) (v : Word) :
    (s.setReg i v).regs = s.regs.set i v := rfl
@[simp] theorem setReg_pc (s : State) (i : Reg) (v : Word) :
    (s.setReg i v).pc = s.pc := rfl
@[simp] theorem setReg_sp (s : State) (i : Reg) (v : Word) :
    (s.setReg i v).sp = s.sp := rfl
@[simp] theorem setReg_psr (s : State) (i : Reg) (v : Word) :
    (s.setReg i v).psr = s.psr := rfl
@[simp] theorem setReg_ttbr (s : State) (i : Reg) (v : Word) :
    (s.setReg i v).ttbr = s.ttbr := rfl
@[simp] theorem setReg_dbram (s : State) (i : Reg) (v : Word) :
    (s.setReg i v).dbram = s.dbram := rfl
@[simp] theorem setReg_dcr (s : State) (i : Reg) (v : Word) :
    (s.setReg i v).dcr = s.dcr := rfl
@[simp] theorem setReg_ibar0 (s : State) (i : Reg) (v : Word) :
    (s.setReg i v).ibar0 = s.ibar0 := rfl
@[simp] theorem setReg_ibar1 (s : State) (i : Reg) (v : Word) :
    (s.setReg i v).ibar1 = s.ibar1 := rfl
@[simp] theorem setReg_ssr (s : State) (i : Reg) (v : Word) :
    (s.setReg i v).ssr = s.ssr := rfl
@[simp] theorem setReg_sdr (s : State) (i : Reg) (v : Word) :
    (s.setReg i v).sdr = s.sdr := rfl
@[simp] theorem setReg_ext (s : State) (i : Reg) (v : Word) :
    (s.setReg i v).ext = s.ext := rfl
@[simp] theorem setReg_delay (s : State) (i : Reg) (v : Word) :
    (s.setReg i v).delay = s.delay := rfl
@[simp] theorem setReg_irqHold (s : State) (i : Reg) (v : Word) :
    (s.setReg i v).irqHold = s.irqHold := rfl
@[simp] theorem setReg_dbgHold (s : State) (i : Reg) (v : Word) :
    (s.setReg i v).dbgHold = s.dbgHold := rfl
@[simp] theorem setReg_dbgLatch (s : State) (i : Reg) (v : Word) :
    (s.setReg i v).dbgLatch = s.dbgLatch := rfl
@[simp] theorem setReg_ieEffective (s : State) (i : Reg) (v : Word) :
    (s.setReg i v).ieEffective = s.ieEffective := rfl
@[simp] theorem setReg_ieLag (s : State) (i : Reg) (v : Word) :
    (s.setReg i v).ieLag = s.ieLag := rfl
@[simp] theorem setReg_runState (s : State) (i : Reg) (v : Word) :
    (s.setReg i v).runState = s.runState := rfl
@[simp] theorem setReg_nmiArmed (s : State) (i : Reg) (v : Word) :
    (s.setReg i v).nmiArmed = s.nmiArmed := rfl
@[simp] theorem setReg_copro (s : State) (i : Reg) (v : Word) :
    (s.setReg i v).copro = s.copro := rfl
@[simp] theorem setReg_mem (s : State) (i : Reg) (v : Word) :
    (s.setReg i v).mem = s.mem := rfl
@[simp] theorem setReg_memMap (s : State) (i : Reg) (v : Word) :
    (s.setReg i v).memMap = s.memMap := rfl
@[simp] theorem setReg_codeRegion (s : State) (i : Reg) (v : Word) :
    (s.setReg i v).codeRegion = s.codeRegion := rfl
@[simp] theorem setReg_debugFw (s : State) (i : Reg) (v : Word) :
    (s.setReg i v).debugFw = s.debugFw := rfl
@[simp] theorem setReg_env (s : State) (i : Reg) (v : Word) :
    (s.setReg i v).env = s.env := rfl
@[simp] theorem setReg_accepted (s : State) (i : Reg) (v : Word) :
    (s.setReg i v).accepted = s.accepted := rfl
@[simp] theorem setReg_freeCount (s : State) (i : Reg) (v : Word) :
    (s.setReg i v).freeCount = s.freeCount := rfl

/-! ### `setSp` -/

@[simp] theorem setSp_regs (s : State) (v : Word) :
    (s.setSp v).regs = s.regs := rfl
@[simp] theorem setSp_pc (s : State) (v : Word) :
    (s.setSp v).pc = s.pc := rfl
@[simp] theorem setSp_sp (s : State) (v : Word) :
    (s.setSp v).sp = align4 v := rfl
@[simp] theorem setSp_psr (s : State) (v : Word) :
    (s.setSp v).psr = s.psr := rfl
@[simp] theorem setSp_ttbr (s : State) (v : Word) :
    (s.setSp v).ttbr = s.ttbr := rfl
@[simp] theorem setSp_dbram (s : State) (v : Word) :
    (s.setSp v).dbram = s.dbram := rfl
@[simp] theorem setSp_dcr (s : State) (v : Word) :
    (s.setSp v).dcr = s.dcr := rfl
@[simp] theorem setSp_ibar0 (s : State) (v : Word) :
    (s.setSp v).ibar0 = s.ibar0 := rfl
@[simp] theorem setSp_ibar1 (s : State) (v : Word) :
    (s.setSp v).ibar1 = s.ibar1 := rfl
@[simp] theorem setSp_ssr (s : State) (v : Word) :
    (s.setSp v).ssr = s.ssr := rfl
@[simp] theorem setSp_sdr (s : State) (v : Word) :
    (s.setSp v).sdr = s.sdr := rfl
@[simp] theorem setSp_ext (s : State) (v : Word) :
    (s.setSp v).ext = s.ext := rfl
@[simp] theorem setSp_delay (s : State) (v : Word) :
    (s.setSp v).delay = s.delay := rfl
@[simp] theorem setSp_irqHold (s : State) (v : Word) :
    (s.setSp v).irqHold = s.irqHold := rfl
@[simp] theorem setSp_dbgHold (s : State) (v : Word) :
    (s.setSp v).dbgHold = s.dbgHold := rfl
@[simp] theorem setSp_dbgLatch (s : State) (v : Word) :
    (s.setSp v).dbgLatch = s.dbgLatch := rfl
@[simp] theorem setSp_ieEffective (s : State) (v : Word) :
    (s.setSp v).ieEffective = s.ieEffective := rfl
@[simp] theorem setSp_ieLag (s : State) (v : Word) :
    (s.setSp v).ieLag = s.ieLag := rfl
@[simp] theorem setSp_runState (s : State) (v : Word) :
    (s.setSp v).runState = s.runState := rfl
@[simp] theorem setSp_nmiArmed (s : State) (v : Word) :
    (s.setSp v).nmiArmed = s.nmiArmed := rfl
@[simp] theorem setSp_copro (s : State) (v : Word) :
    (s.setSp v).copro = s.copro := rfl
@[simp] theorem setSp_mem (s : State) (v : Word) :
    (s.setSp v).mem = s.mem := rfl
@[simp] theorem setSp_memMap (s : State) (v : Word) :
    (s.setSp v).memMap = s.memMap := rfl
@[simp] theorem setSp_codeRegion (s : State) (v : Word) :
    (s.setSp v).codeRegion = s.codeRegion := rfl
@[simp] theorem setSp_debugFw (s : State) (v : Word) :
    (s.setSp v).debugFw = s.debugFw := rfl
@[simp] theorem setSp_env (s : State) (v : Word) :
    (s.setSp v).env = s.env := rfl
@[simp] theorem setSp_accepted (s : State) (v : Word) :
    (s.setSp v).accepted = s.accepted := rfl
@[simp] theorem setSp_freeCount (s : State) (v : Word) :
    (s.setSp v).freeCount = s.freeCount := rfl

/-! ### `advance` -/

@[simp] theorem advance_regs (s : State) :
    (advance s).regs = s.regs := rfl
@[simp] theorem advance_pc (s : State) :
    (advance s).pc = s.pc + 2 := rfl
@[simp] theorem advance_sp (s : State) :
    (advance s).sp = s.sp := rfl
@[simp] theorem advance_psr (s : State) :
    (advance s).psr = s.psr := rfl
@[simp] theorem advance_ttbr (s : State) :
    (advance s).ttbr = s.ttbr := rfl
@[simp] theorem advance_dbram (s : State) :
    (advance s).dbram = s.dbram := rfl
@[simp] theorem advance_dcr (s : State) :
    (advance s).dcr = s.dcr := rfl
@[simp] theorem advance_ibar0 (s : State) :
    (advance s).ibar0 = s.ibar0 := rfl
@[simp] theorem advance_ibar1 (s : State) :
    (advance s).ibar1 = s.ibar1 := rfl
@[simp] theorem advance_ssr (s : State) :
    (advance s).ssr = s.ssr := rfl
@[simp] theorem advance_sdr (s : State) :
    (advance s).sdr = s.sdr := rfl
@[simp] theorem advance_ext (s : State) :
    (advance s).ext = .none := rfl
@[simp] theorem advance_delay (s : State) :
    (advance s).delay = s.delay := rfl
@[simp] theorem advance_irqHold (s : State) :
    (advance s).irqHold = s.irqHold := rfl
@[simp] theorem advance_dbgHold (s : State) :
    (advance s).dbgHold = s.dbgHold := rfl
@[simp] theorem advance_dbgLatch (s : State) :
    (advance s).dbgLatch = s.dbgLatch := rfl
@[simp] theorem advance_ieEffective (s : State) :
    (advance s).ieEffective = s.ieEffective := rfl
@[simp] theorem advance_ieLag (s : State) :
    (advance s).ieLag = s.ieLag := rfl
@[simp] theorem advance_runState (s : State) :
    (advance s).runState = s.runState := rfl
@[simp] theorem advance_nmiArmed (s : State) :
    (advance s).nmiArmed = s.nmiArmed := rfl
@[simp] theorem advance_copro (s : State) :
    (advance s).copro = s.copro := rfl
@[simp] theorem advance_mem (s : State) :
    (advance s).mem = s.mem := rfl
@[simp] theorem advance_memMap (s : State) :
    (advance s).memMap = s.memMap := rfl
@[simp] theorem advance_codeRegion (s : State) :
    (advance s).codeRegion = s.codeRegion := rfl
@[simp] theorem advance_debugFw (s : State) :
    (advance s).debugFw = s.debugFw := rfl
@[simp] theorem advance_env (s : State) :
    (advance s).env = s.env := rfl
@[simp] theorem advance_accepted (s : State) :
    (advance s).accepted = s.accepted := rfl
@[simp] theorem advance_freeCount (s : State) :
    (advance s).freeCount = s.freeCount := rfl

/-! ### `jumpTo` -/

@[simp] theorem jumpTo_regs (s : State) (a : Word) :
    (jumpTo s a).regs = s.regs := rfl
@[simp] theorem jumpTo_pc (s : State) (a : Word) :
    (jumpTo s a).pc = even a := rfl
@[simp] theorem jumpTo_sp (s : State) (a : Word) :
    (jumpTo s a).sp = s.sp := rfl
@[simp] theorem jumpTo_psr (s : State) (a : Word) :
    (jumpTo s a).psr = s.psr := rfl
@[simp] theorem jumpTo_ttbr (s : State) (a : Word) :
    (jumpTo s a).ttbr = s.ttbr := rfl
@[simp] theorem jumpTo_dbram (s : State) (a : Word) :
    (jumpTo s a).dbram = s.dbram := rfl
@[simp] theorem jumpTo_dcr (s : State) (a : Word) :
    (jumpTo s a).dcr = s.dcr := rfl
@[simp] theorem jumpTo_ibar0 (s : State) (a : Word) :
    (jumpTo s a).ibar0 = s.ibar0 := rfl
@[simp] theorem jumpTo_ibar1 (s : State) (a : Word) :
    (jumpTo s a).ibar1 = s.ibar1 := rfl
@[simp] theorem jumpTo_ssr (s : State) (a : Word) :
    (jumpTo s a).ssr = s.ssr := rfl
@[simp] theorem jumpTo_sdr (s : State) (a : Word) :
    (jumpTo s a).sdr = s.sdr := rfl
@[simp] theorem jumpTo_ext (s : State) (a : Word) :
    (jumpTo s a).ext = .none := rfl
@[simp] theorem jumpTo_delay (s : State) (a : Word) :
    (jumpTo s a).delay = s.delay := rfl
@[simp] theorem jumpTo_irqHold (s : State) (a : Word) :
    (jumpTo s a).irqHold = s.irqHold := rfl
@[simp] theorem jumpTo_dbgHold (s : State) (a : Word) :
    (jumpTo s a).dbgHold = s.dbgHold := rfl
@[simp] theorem jumpTo_dbgLatch (s : State) (a : Word) :
    (jumpTo s a).dbgLatch = s.dbgLatch := rfl
@[simp] theorem jumpTo_ieEffective (s : State) (a : Word) :
    (jumpTo s a).ieEffective = s.ieEffective := rfl
@[simp] theorem jumpTo_ieLag (s : State) (a : Word) :
    (jumpTo s a).ieLag = s.ieLag := rfl
@[simp] theorem jumpTo_runState (s : State) (a : Word) :
    (jumpTo s a).runState = s.runState := rfl
@[simp] theorem jumpTo_nmiArmed (s : State) (a : Word) :
    (jumpTo s a).nmiArmed = s.nmiArmed := rfl
@[simp] theorem jumpTo_copro (s : State) (a : Word) :
    (jumpTo s a).copro = s.copro := rfl
@[simp] theorem jumpTo_mem (s : State) (a : Word) :
    (jumpTo s a).mem = s.mem := rfl
@[simp] theorem jumpTo_memMap (s : State) (a : Word) :
    (jumpTo s a).memMap = s.memMap := rfl
@[simp] theorem jumpTo_codeRegion (s : State) (a : Word) :
    (jumpTo s a).codeRegion = s.codeRegion := rfl
@[simp] theorem jumpTo_debugFw (s : State) (a : Word) :
    (jumpTo s a).debugFw = s.debugFw := rfl
@[simp] theorem jumpTo_env (s : State) (a : Word) :
    (jumpTo s a).env = s.env := rfl
@[simp] theorem jumpTo_accepted (s : State) (a : Word) :
    (jumpTo s a).accepted = s.accepted := rfl
@[simp] theorem jumpTo_freeCount (s : State) (a : Word) :
    (jumpTo s a).freeCount = s.freeCount := rfl

/-! ### `holdIrq` -/

@[simp] theorem holdIrq_regs (s : State) :
    (holdIrq s).regs = s.regs := rfl
@[simp] theorem holdIrq_pc (s : State) :
    (holdIrq s).pc = s.pc := rfl
@[simp] theorem holdIrq_sp (s : State) :
    (holdIrq s).sp = s.sp := rfl
@[simp] theorem holdIrq_psr (s : State) :
    (holdIrq s).psr = s.psr := rfl
@[simp] theorem holdIrq_ttbr (s : State) :
    (holdIrq s).ttbr = s.ttbr := rfl
@[simp] theorem holdIrq_dbram (s : State) :
    (holdIrq s).dbram = s.dbram := rfl
@[simp] theorem holdIrq_dcr (s : State) :
    (holdIrq s).dcr = s.dcr := rfl
@[simp] theorem holdIrq_ibar0 (s : State) :
    (holdIrq s).ibar0 = s.ibar0 := rfl
@[simp] theorem holdIrq_ibar1 (s : State) :
    (holdIrq s).ibar1 = s.ibar1 := rfl
@[simp] theorem holdIrq_ssr (s : State) :
    (holdIrq s).ssr = s.ssr := rfl
@[simp] theorem holdIrq_sdr (s : State) :
    (holdIrq s).sdr = s.sdr := rfl
@[simp] theorem holdIrq_ext (s : State) :
    (holdIrq s).ext = s.ext := rfl
@[simp] theorem holdIrq_delay (s : State) :
    (holdIrq s).delay = s.delay := rfl
@[simp] theorem holdIrq_irqHold (s : State) :
    (holdIrq s).irqHold = max s.irqHold 1 := rfl
@[simp] theorem holdIrq_dbgHold (s : State) :
    (holdIrq s).dbgHold = s.dbgHold := rfl
@[simp] theorem holdIrq_dbgLatch (s : State) :
    (holdIrq s).dbgLatch = s.dbgLatch := rfl
@[simp] theorem holdIrq_ieEffective (s : State) :
    (holdIrq s).ieEffective = s.ieEffective := rfl
@[simp] theorem holdIrq_ieLag (s : State) :
    (holdIrq s).ieLag = s.ieLag := rfl
@[simp] theorem holdIrq_runState (s : State) :
    (holdIrq s).runState = s.runState := rfl
@[simp] theorem holdIrq_nmiArmed (s : State) :
    (holdIrq s).nmiArmed = s.nmiArmed := rfl
@[simp] theorem holdIrq_copro (s : State) :
    (holdIrq s).copro = s.copro := rfl
@[simp] theorem holdIrq_mem (s : State) :
    (holdIrq s).mem = s.mem := rfl
@[simp] theorem holdIrq_memMap (s : State) :
    (holdIrq s).memMap = s.memMap := rfl
@[simp] theorem holdIrq_codeRegion (s : State) :
    (holdIrq s).codeRegion = s.codeRegion := rfl
@[simp] theorem holdIrq_debugFw (s : State) :
    (holdIrq s).debugFw = s.debugFw := rfl
@[simp] theorem holdIrq_env (s : State) :
    (holdIrq s).env = s.env := rfl
@[simp] theorem holdIrq_accepted (s : State) :
    (holdIrq s).accepted = s.accepted := rfl
@[simp] theorem holdIrq_freeCount (s : State) :
    (holdIrq s).freeCount = s.freeCount := rfl

/-! ### `delayedBranch` -/

@[simp] theorem delayedBranch_regs (s : State) (k : DelayKind) (b : Bool) (a : Word) :
    (delayedBranch s k b a).regs = s.regs := rfl
@[simp] theorem delayedBranch_pc (s : State) (k : DelayKind) (b : Bool) (a : Word) :
    (delayedBranch s k b a).pc = s.pc + 2 := rfl
@[simp] theorem delayedBranch_sp (s : State) (k : DelayKind) (b : Bool) (a : Word) :
    (delayedBranch s k b a).sp = s.sp := rfl
@[simp] theorem delayedBranch_psr (s : State) (k : DelayKind) (b : Bool) (a : Word) :
    (delayedBranch s k b a).psr = s.psr := rfl
@[simp] theorem delayedBranch_ttbr (s : State) (k : DelayKind) (b : Bool) (a : Word) :
    (delayedBranch s k b a).ttbr = s.ttbr := rfl
@[simp] theorem delayedBranch_dbram (s : State) (k : DelayKind) (b : Bool) (a : Word) :
    (delayedBranch s k b a).dbram = s.dbram := rfl
@[simp] theorem delayedBranch_dcr (s : State) (k : DelayKind) (b : Bool) (a : Word) :
    (delayedBranch s k b a).dcr = s.dcr := rfl
@[simp] theorem delayedBranch_ibar0 (s : State) (k : DelayKind) (b : Bool) (a : Word) :
    (delayedBranch s k b a).ibar0 = s.ibar0 := rfl
@[simp] theorem delayedBranch_ibar1 (s : State) (k : DelayKind) (b : Bool) (a : Word) :
    (delayedBranch s k b a).ibar1 = s.ibar1 := rfl
@[simp] theorem delayedBranch_ssr (s : State) (k : DelayKind) (b : Bool) (a : Word) :
    (delayedBranch s k b a).ssr = s.ssr := rfl
@[simp] theorem delayedBranch_sdr (s : State) (k : DelayKind) (b : Bool) (a : Word) :
    (delayedBranch s k b a).sdr = s.sdr := rfl
@[simp] theorem delayedBranch_ext (s : State) (k : DelayKind) (b : Bool) (a : Word) :
    (delayedBranch s k b a).ext = .none := rfl
@[simp] theorem delayedBranch_delay (s : State) (k : DelayKind) (b : Bool) (a : Word) :
    (delayedBranch s k b a).delay = some ⟨if b then a else s.pc + 4, k⟩ := rfl
@[simp] theorem delayedBranch_irqHold (s : State) (k : DelayKind) (b : Bool) (a : Word) :
    (delayedBranch s k b a).irqHold = max s.irqHold 1 := rfl
@[simp] theorem delayedBranch_dbgHold (s : State) (k : DelayKind) (b : Bool) (a : Word) :
    (delayedBranch s k b a).dbgHold = true := rfl
@[simp] theorem delayedBranch_dbgLatch (s : State) (k : DelayKind) (b : Bool) (a : Word) :
    (delayedBranch s k b a).dbgLatch = s.dbgLatch := rfl
@[simp] theorem delayedBranch_ieEffective (s : State) (k : DelayKind) (b : Bool) (a : Word) :
    (delayedBranch s k b a).ieEffective = s.ieEffective := rfl
@[simp] theorem delayedBranch_ieLag (s : State) (k : DelayKind) (b : Bool) (a : Word) :
    (delayedBranch s k b a).ieLag = s.ieLag := rfl
@[simp] theorem delayedBranch_runState (s : State) (k : DelayKind) (b : Bool) (a : Word) :
    (delayedBranch s k b a).runState = s.runState := rfl
@[simp] theorem delayedBranch_nmiArmed (s : State) (k : DelayKind) (b : Bool) (a : Word) :
    (delayedBranch s k b a).nmiArmed = s.nmiArmed := rfl
@[simp] theorem delayedBranch_copro (s : State) (k : DelayKind) (b : Bool) (a : Word) :
    (delayedBranch s k b a).copro = s.copro := rfl
@[simp] theorem delayedBranch_mem (s : State) (k : DelayKind) (b : Bool) (a : Word) :
    (delayedBranch s k b a).mem = s.mem := rfl
@[simp] theorem delayedBranch_memMap (s : State) (k : DelayKind) (b : Bool) (a : Word) :
    (delayedBranch s k b a).memMap = s.memMap := rfl
@[simp] theorem delayedBranch_codeRegion (s : State) (k : DelayKind) (b : Bool) (a : Word) :
    (delayedBranch s k b a).codeRegion = s.codeRegion := rfl
@[simp] theorem delayedBranch_debugFw (s : State) (k : DelayKind) (b : Bool) (a : Word) :
    (delayedBranch s k b a).debugFw = s.debugFw := rfl
@[simp] theorem delayedBranch_env (s : State) (k : DelayKind) (b : Bool) (a : Word) :
    (delayedBranch s k b a).env = s.env := rfl
@[simp] theorem delayedBranch_accepted (s : State) (k : DelayKind) (b : Bool) (a : Word) :
    (delayedBranch s k b a).accepted = s.accepted := rfl
@[simp] theorem delayedBranch_freeCount (s : State) (k : DelayKind) (b : Bool) (a : Word) :
    (delayedBranch s k b a).freeCount = s.freeCount := rfl

/-! ### `clearIe` -/

@[simp] theorem clearIe_regs (s : State) :
    (clearIe s).regs = s.regs := rfl
@[simp] theorem clearIe_pc (s : State) :
    (clearIe s).pc = s.pc := rfl
@[simp] theorem clearIe_sp (s : State) :
    (clearIe s).sp = s.sp := rfl
@[simp] theorem clearIe_psr (s : State) :
    (clearIe s).psr = { s.psr with ie := false } := rfl
@[simp] theorem clearIe_ttbr (s : State) :
    (clearIe s).ttbr = s.ttbr := rfl
@[simp] theorem clearIe_dbram (s : State) :
    (clearIe s).dbram = s.dbram := rfl
@[simp] theorem clearIe_dcr (s : State) :
    (clearIe s).dcr = s.dcr := rfl
@[simp] theorem clearIe_ibar0 (s : State) :
    (clearIe s).ibar0 = s.ibar0 := rfl
@[simp] theorem clearIe_ibar1 (s : State) :
    (clearIe s).ibar1 = s.ibar1 := rfl
@[simp] theorem clearIe_ssr (s : State) :
    (clearIe s).ssr = s.ssr := rfl
@[simp] theorem clearIe_sdr (s : State) :
    (clearIe s).sdr = s.sdr := rfl
@[simp] theorem clearIe_ext (s : State) :
    (clearIe s).ext = s.ext := rfl
@[simp] theorem clearIe_delay (s : State) :
    (clearIe s).delay = s.delay := rfl
@[simp] theorem clearIe_irqHold (s : State) :
    (clearIe s).irqHold = s.irqHold := rfl
@[simp] theorem clearIe_dbgHold (s : State) :
    (clearIe s).dbgHold = s.dbgHold := rfl
@[simp] theorem clearIe_dbgLatch (s : State) :
    (clearIe s).dbgLatch = s.dbgLatch := rfl
@[simp] theorem clearIe_ieEffective (s : State) :
    (clearIe s).ieEffective = false := rfl
@[simp] theorem clearIe_ieLag (s : State) :
    (clearIe s).ieLag = 0 := rfl
@[simp] theorem clearIe_runState (s : State) :
    (clearIe s).runState = s.runState := rfl
@[simp] theorem clearIe_nmiArmed (s : State) :
    (clearIe s).nmiArmed = s.nmiArmed := rfl
@[simp] theorem clearIe_copro (s : State) :
    (clearIe s).copro = s.copro := rfl
@[simp] theorem clearIe_mem (s : State) :
    (clearIe s).mem = s.mem := rfl
@[simp] theorem clearIe_memMap (s : State) :
    (clearIe s).memMap = s.memMap := rfl
@[simp] theorem clearIe_codeRegion (s : State) :
    (clearIe s).codeRegion = s.codeRegion := rfl
@[simp] theorem clearIe_debugFw (s : State) :
    (clearIe s).debugFw = s.debugFw := rfl
@[simp] theorem clearIe_env (s : State) :
    (clearIe s).env = s.env := rfl
@[simp] theorem clearIe_accepted (s : State) :
    (clearIe s).accepted = s.accepted := rfl
@[simp] theorem clearIe_freeCount (s : State) :
    (clearIe s).freeCount = s.freeCount := rfl

/-! ### `toReg` -/

@[simp] theorem toReg_regs (s : State) (i : Reg) (v : Word) :
    (toReg i v s).regs = s.regs.set i v := rfl
@[simp] theorem toReg_pc (s : State) (i : Reg) (v : Word) :
    (toReg i v s).pc = s.pc + 2 := rfl
@[simp] theorem toReg_sp (s : State) (i : Reg) (v : Word) :
    (toReg i v s).sp = s.sp := rfl
@[simp] theorem toReg_psr (s : State) (i : Reg) (v : Word) :
    (toReg i v s).psr = s.psr := rfl
@[simp] theorem toReg_ttbr (s : State) (i : Reg) (v : Word) :
    (toReg i v s).ttbr = s.ttbr := rfl
@[simp] theorem toReg_dbram (s : State) (i : Reg) (v : Word) :
    (toReg i v s).dbram = s.dbram := rfl
@[simp] theorem toReg_dcr (s : State) (i : Reg) (v : Word) :
    (toReg i v s).dcr = s.dcr := rfl
@[simp] theorem toReg_ibar0 (s : State) (i : Reg) (v : Word) :
    (toReg i v s).ibar0 = s.ibar0 := rfl
@[simp] theorem toReg_ibar1 (s : State) (i : Reg) (v : Word) :
    (toReg i v s).ibar1 = s.ibar1 := rfl
@[simp] theorem toReg_ssr (s : State) (i : Reg) (v : Word) :
    (toReg i v s).ssr = s.ssr := rfl
@[simp] theorem toReg_sdr (s : State) (i : Reg) (v : Word) :
    (toReg i v s).sdr = s.sdr := rfl
@[simp] theorem toReg_ext (s : State) (i : Reg) (v : Word) :
    (toReg i v s).ext = .none := rfl
@[simp] theorem toReg_delay (s : State) (i : Reg) (v : Word) :
    (toReg i v s).delay = s.delay := rfl
@[simp] theorem toReg_irqHold (s : State) (i : Reg) (v : Word) :
    (toReg i v s).irqHold = s.irqHold := rfl
@[simp] theorem toReg_dbgHold (s : State) (i : Reg) (v : Word) :
    (toReg i v s).dbgHold = s.dbgHold := rfl
@[simp] theorem toReg_dbgLatch (s : State) (i : Reg) (v : Word) :
    (toReg i v s).dbgLatch = s.dbgLatch := rfl
@[simp] theorem toReg_ieEffective (s : State) (i : Reg) (v : Word) :
    (toReg i v s).ieEffective = s.ieEffective := rfl
@[simp] theorem toReg_ieLag (s : State) (i : Reg) (v : Word) :
    (toReg i v s).ieLag = s.ieLag := rfl
@[simp] theorem toReg_runState (s : State) (i : Reg) (v : Word) :
    (toReg i v s).runState = s.runState := rfl
@[simp] theorem toReg_nmiArmed (s : State) (i : Reg) (v : Word) :
    (toReg i v s).nmiArmed = s.nmiArmed := rfl
@[simp] theorem toReg_copro (s : State) (i : Reg) (v : Word) :
    (toReg i v s).copro = s.copro := rfl
@[simp] theorem toReg_mem (s : State) (i : Reg) (v : Word) :
    (toReg i v s).mem = s.mem := rfl
@[simp] theorem toReg_memMap (s : State) (i : Reg) (v : Word) :
    (toReg i v s).memMap = s.memMap := rfl
@[simp] theorem toReg_codeRegion (s : State) (i : Reg) (v : Word) :
    (toReg i v s).codeRegion = s.codeRegion := rfl
@[simp] theorem toReg_debugFw (s : State) (i : Reg) (v : Word) :
    (toReg i v s).debugFw = s.debugFw := rfl
@[simp] theorem toReg_env (s : State) (i : Reg) (v : Word) :
    (toReg i v s).env = s.env := rfl
@[simp] theorem toReg_accepted (s : State) (i : Reg) (v : Word) :
    (toReg i v s).accepted = s.accepted := rfl
@[simp] theorem toReg_freeCount (s : State) (i : Reg) (v : Word) :
    (toReg i v s).freeCount = s.freeCount := rfl

/-! ### `enterSlot` -/

@[simp] theorem enterSlot_regs (s : State) :
    (enterSlot s).regs = s.regs := rfl
@[simp] theorem enterSlot_pc (s : State) :
    (enterSlot s).pc = s.pc := rfl
@[simp] theorem enterSlot_sp (s : State) :
    (enterSlot s).sp = s.sp := rfl
@[simp] theorem enterSlot_psr (s : State) :
    (enterSlot s).psr = s.psr := rfl
@[simp] theorem enterSlot_ttbr (s : State) :
    (enterSlot s).ttbr = s.ttbr := rfl
@[simp] theorem enterSlot_dbram (s : State) :
    (enterSlot s).dbram = s.dbram := rfl
@[simp] theorem enterSlot_dcr (s : State) :
    (enterSlot s).dcr = s.dcr := rfl
@[simp] theorem enterSlot_ibar0 (s : State) :
    (enterSlot s).ibar0 = s.ibar0 := rfl
@[simp] theorem enterSlot_ibar1 (s : State) :
    (enterSlot s).ibar1 = s.ibar1 := rfl
@[simp] theorem enterSlot_ssr (s : State) :
    (enterSlot s).ssr = s.ssr := rfl
@[simp] theorem enterSlot_sdr (s : State) :
    (enterSlot s).sdr = s.sdr := rfl
@[simp] theorem enterSlot_ext (s : State) :
    (enterSlot s).ext = .none := rfl
@[simp] theorem enterSlot_delay (s : State) :
    (enterSlot s).delay = s.delay := rfl
@[simp] theorem enterSlot_irqHold (s : State) :
    (enterSlot s).irqHold = s.irqHold := rfl
@[simp] theorem enterSlot_dbgHold (s : State) :
    (enterSlot s).dbgHold = s.dbgHold := rfl
@[simp] theorem enterSlot_dbgLatch (s : State) :
    (enterSlot s).dbgLatch = s.dbgLatch := rfl
@[simp] theorem enterSlot_ieEffective (s : State) :
    (enterSlot s).ieEffective = s.ieEffective := rfl
@[simp] theorem enterSlot_ieLag (s : State) :
    (enterSlot s).ieLag = s.ieLag := rfl
@[simp] theorem enterSlot_runState (s : State) :
    (enterSlot s).runState = s.runState := rfl
@[simp] theorem enterSlot_nmiArmed (s : State) :
    (enterSlot s).nmiArmed = s.nmiArmed := rfl
@[simp] theorem enterSlot_copro (s : State) :
    (enterSlot s).copro = s.copro := rfl
@[simp] theorem enterSlot_mem (s : State) :
    (enterSlot s).mem = s.mem := rfl
@[simp] theorem enterSlot_memMap (s : State) :
    (enterSlot s).memMap = s.memMap := rfl
@[simp] theorem enterSlot_codeRegion (s : State) :
    (enterSlot s).codeRegion = s.codeRegion := rfl
@[simp] theorem enterSlot_debugFw (s : State) :
    (enterSlot s).debugFw = s.debugFw := rfl
@[simp] theorem enterSlot_env (s : State) :
    (enterSlot s).env = s.env := rfl
@[simp] theorem enterSlot_accepted (s : State) :
    (enterSlot s).accepted = s.accepted := rfl
@[simp] theorem enterSlot_freeCount (s : State) :
    (enterSlot s).freeCount = s.freeCount := rfl

/-! ### `leaveSlot` -/

@[simp] theorem leaveSlot_regs (s : State) (d : DelayPending) :
    (leaveSlot d s).regs = s.regs := rfl
@[simp] theorem leaveSlot_pc (s : State) (d : DelayPending) :
    (leaveSlot d s).pc = even d.target := rfl
@[simp] theorem leaveSlot_sp (s : State) (d : DelayPending) :
    (leaveSlot d s).sp = s.sp := rfl
@[simp] theorem leaveSlot_psr (s : State) (d : DelayPending) :
    (leaveSlot d s).psr = s.psr := rfl
@[simp] theorem leaveSlot_ttbr (s : State) (d : DelayPending) :
    (leaveSlot d s).ttbr = s.ttbr := rfl
@[simp] theorem leaveSlot_dbram (s : State) (d : DelayPending) :
    (leaveSlot d s).dbram = s.dbram := rfl
@[simp] theorem leaveSlot_dcr (s : State) (d : DelayPending) :
    (leaveSlot d s).dcr = s.dcr := rfl
@[simp] theorem leaveSlot_ibar0 (s : State) (d : DelayPending) :
    (leaveSlot d s).ibar0 = s.ibar0 := rfl
@[simp] theorem leaveSlot_ibar1 (s : State) (d : DelayPending) :
    (leaveSlot d s).ibar1 = s.ibar1 := rfl
@[simp] theorem leaveSlot_ssr (s : State) (d : DelayPending) :
    (leaveSlot d s).ssr = s.ssr := rfl
@[simp] theorem leaveSlot_sdr (s : State) (d : DelayPending) :
    (leaveSlot d s).sdr = s.sdr := rfl
@[simp] theorem leaveSlot_ext (s : State) (d : DelayPending) :
    (leaveSlot d s).ext = s.ext := rfl
@[simp] theorem leaveSlot_delay (s : State) (d : DelayPending) :
    (leaveSlot d s).delay = none := rfl
@[simp] theorem leaveSlot_irqHold (s : State) (d : DelayPending) :
    (leaveSlot d s).irqHold = s.irqHold := rfl
@[simp] theorem leaveSlot_dbgHold (s : State) (d : DelayPending) :
    (leaveSlot d s).dbgHold = s.dbgHold := rfl
@[simp] theorem leaveSlot_dbgLatch (s : State) (d : DelayPending) :
    (leaveSlot d s).dbgLatch = s.dbgLatch := rfl
@[simp] theorem leaveSlot_ieEffective (s : State) (d : DelayPending) :
    (leaveSlot d s).ieEffective = s.ieEffective := rfl
@[simp] theorem leaveSlot_ieLag (s : State) (d : DelayPending) :
    (leaveSlot d s).ieLag = s.ieLag := rfl
@[simp] theorem leaveSlot_runState (s : State) (d : DelayPending) :
    (leaveSlot d s).runState = s.runState := rfl
@[simp] theorem leaveSlot_nmiArmed (s : State) (d : DelayPending) :
    (leaveSlot d s).nmiArmed = s.nmiArmed := rfl
@[simp] theorem leaveSlot_copro (s : State) (d : DelayPending) :
    (leaveSlot d s).copro = s.copro := rfl
@[simp] theorem leaveSlot_mem (s : State) (d : DelayPending) :
    (leaveSlot d s).mem = s.mem := rfl
@[simp] theorem leaveSlot_memMap (s : State) (d : DelayPending) :
    (leaveSlot d s).memMap = s.memMap := rfl
@[simp] theorem leaveSlot_codeRegion (s : State) (d : DelayPending) :
    (leaveSlot d s).codeRegion = s.codeRegion := rfl
@[simp] theorem leaveSlot_debugFw (s : State) (d : DelayPending) :
    (leaveSlot d s).debugFw = s.debugFw := rfl
@[simp] theorem leaveSlot_env (s : State) (d : DelayPending) :
    (leaveSlot d s).env = s.env := rfl
@[simp] theorem leaveSlot_accepted (s : State) (d : DelayPending) :
    (leaveSlot d s).accepted = s.accepted := rfl
@[simp] theorem leaveSlot_freeCount (s : State) (d : DelayPending) :
    (leaveSlot d s).freeCount = s.freeCount := rfl

/-! ### `singleStep` -/

@[simp] theorem singleStep_regs (s : State) (b : Bool) :
    (singleStep b s).regs = s.regs := rfl
@[simp] theorem singleStep_pc (s : State) (b : Bool) :
    (singleStep b s).pc = s.pc := rfl
@[simp] theorem singleStep_sp (s : State) (b : Bool) :
    (singleStep b s).sp = s.sp := rfl
@[simp] theorem singleStep_psr (s : State) (b : Bool) :
    (singleStep b s).psr = s.psr := rfl
@[simp] theorem singleStep_ttbr (s : State) (b : Bool) :
    (singleStep b s).ttbr = s.ttbr := rfl
@[simp] theorem singleStep_dbram (s : State) (b : Bool) :
    (singleStep b s).dbram = s.dbram := rfl
@[simp] theorem singleStep_dcr (s : State) (b : Bool) :
    (singleStep b s).dcr = s.dcr := rfl
@[simp] theorem singleStep_ibar0 (s : State) (b : Bool) :
    (singleStep b s).ibar0 = s.ibar0 := rfl
@[simp] theorem singleStep_ibar1 (s : State) (b : Bool) :
    (singleStep b s).ibar1 = s.ibar1 := rfl
@[simp] theorem singleStep_ssr (s : State) (b : Bool) :
    (singleStep b s).ssr = s.ssr := rfl
@[simp] theorem singleStep_sdr (s : State) (b : Bool) :
    (singleStep b s).sdr = s.sdr := rfl
@[simp] theorem singleStep_ext (s : State) (b : Bool) :
    (singleStep b s).ext = s.ext := rfl
@[simp] theorem singleStep_delay (s : State) (b : Bool) :
    (singleStep b s).delay = s.delay := rfl
@[simp] theorem singleStep_irqHold (s : State) (b : Bool) :
    (singleStep b s).irqHold = s.irqHold := rfl
@[simp] theorem singleStep_dbgHold (s : State) (b : Bool) :
    (singleStep b s).dbgHold = s.dbgHold := rfl
@[simp] theorem singleStep_dbgLatch (s : State) (b : Bool) :
    (singleStep b s).dbgLatch = (s.dbgLatch || (s.dcr.se && !b && !s.dcr.dm)) := rfl
@[simp] theorem singleStep_ieEffective (s : State) (b : Bool) :
    (singleStep b s).ieEffective = s.ieEffective := rfl
@[simp] theorem singleStep_ieLag (s : State) (b : Bool) :
    (singleStep b s).ieLag = s.ieLag := rfl
@[simp] theorem singleStep_runState (s : State) (b : Bool) :
    (singleStep b s).runState = s.runState := rfl
@[simp] theorem singleStep_nmiArmed (s : State) (b : Bool) :
    (singleStep b s).nmiArmed = s.nmiArmed := rfl
@[simp] theorem singleStep_copro (s : State) (b : Bool) :
    (singleStep b s).copro = s.copro := rfl
@[simp] theorem singleStep_mem (s : State) (b : Bool) :
    (singleStep b s).mem = s.mem := rfl
@[simp] theorem singleStep_memMap (s : State) (b : Bool) :
    (singleStep b s).memMap = s.memMap := rfl
@[simp] theorem singleStep_codeRegion (s : State) (b : Bool) :
    (singleStep b s).codeRegion = s.codeRegion := rfl
@[simp] theorem singleStep_debugFw (s : State) (b : Bool) :
    (singleStep b s).debugFw = s.debugFw := rfl
@[simp] theorem singleStep_env (s : State) (b : Bool) :
    (singleStep b s).env = s.env := rfl
@[simp] theorem singleStep_accepted (s : State) (b : Bool) :
    (singleStep b s).accepted = s.accepted := rfl
@[simp] theorem singleStep_freeCount (s : State) (b : Bool) :
    (singleStep b s).freeCount = s.freeCount := rfl

/-! ### `consumeInputs` -/

@[simp] theorem consumeInputs_regs (s : State) :
    (consumeInputs s).regs = s.regs := rfl
@[simp] theorem consumeInputs_pc (s : State) :
    (consumeInputs s).pc = s.pc := rfl
@[simp] theorem consumeInputs_sp (s : State) :
    (consumeInputs s).sp = s.sp := rfl
@[simp] theorem consumeInputs_psr (s : State) :
    (consumeInputs s).psr = s.psr := rfl
@[simp] theorem consumeInputs_ttbr (s : State) :
    (consumeInputs s).ttbr = s.ttbr := rfl
@[simp] theorem consumeInputs_dbram (s : State) :
    (consumeInputs s).dbram = s.dbram := rfl
@[simp] theorem consumeInputs_dcr (s : State) :
    (consumeInputs s).dcr = s.dcr := rfl
@[simp] theorem consumeInputs_ibar0 (s : State) :
    (consumeInputs s).ibar0 = s.ibar0 := rfl
@[simp] theorem consumeInputs_ibar1 (s : State) :
    (consumeInputs s).ibar1 = s.ibar1 := rfl
@[simp] theorem consumeInputs_ssr (s : State) :
    (consumeInputs s).ssr = s.ssr := rfl
@[simp] theorem consumeInputs_sdr (s : State) :
    (consumeInputs s).sdr = s.sdr := rfl
@[simp] theorem consumeInputs_ext (s : State) :
    (consumeInputs s).ext = s.ext := rfl
@[simp] theorem consumeInputs_delay (s : State) :
    (consumeInputs s).delay = s.delay := rfl
@[simp] theorem consumeInputs_irqHold (s : State) :
    (consumeInputs s).irqHold = s.irqHold := rfl
@[simp] theorem consumeInputs_dbgHold (s : State) :
    (consumeInputs s).dbgHold = s.dbgHold := rfl
@[simp] theorem consumeInputs_dbgLatch (s : State) :
    (consumeInputs s).dbgLatch = s.dbgLatch := rfl
@[simp] theorem consumeInputs_ieEffective (s : State) :
    (consumeInputs s).ieEffective = s.ieEffective := rfl
@[simp] theorem consumeInputs_ieLag (s : State) :
    (consumeInputs s).ieLag = s.ieLag := rfl
@[simp] theorem consumeInputs_runState (s : State) :
    (consumeInputs s).runState = s.runState := rfl
@[simp] theorem consumeInputs_nmiArmed (s : State) :
    (consumeInputs s).nmiArmed = s.nmiArmed := rfl
@[simp] theorem consumeInputs_copro (s : State) :
    (consumeInputs s).copro = s.copro := rfl
@[simp] theorem consumeInputs_mem (s : State) :
    (consumeInputs s).mem = s.mem := rfl
@[simp] theorem consumeInputs_memMap (s : State) :
    (consumeInputs s).memMap = s.memMap := rfl
@[simp] theorem consumeInputs_codeRegion (s : State) :
    (consumeInputs s).codeRegion = s.codeRegion := rfl
@[simp] theorem consumeInputs_debugFw (s : State) :
    (consumeInputs s).debugFw = s.debugFw := rfl
@[simp] theorem consumeInputs_env (s : State) :
    (consumeInputs s).env = s.env.tail := rfl
@[simp] theorem consumeInputs_accepted (s : State) :
    (consumeInputs s).accepted = s.accepted := rfl
@[simp] theorem consumeInputs_freeCount (s : State) :
    (consumeInputs s).freeCount = s.freeCount := rfl

/-! ### `countBoundary` -/

@[simp] theorem countBoundary_regs (s : State) :
    (countBoundary s).regs = s.regs := rfl
@[simp] theorem countBoundary_pc (s : State) :
    (countBoundary s).pc = s.pc := rfl
@[simp] theorem countBoundary_sp (s : State) :
    (countBoundary s).sp = s.sp := rfl
@[simp] theorem countBoundary_psr (s : State) :
    (countBoundary s).psr = s.psr := rfl
@[simp] theorem countBoundary_ttbr (s : State) :
    (countBoundary s).ttbr = s.ttbr := rfl
@[simp] theorem countBoundary_dbram (s : State) :
    (countBoundary s).dbram = s.dbram := rfl
@[simp] theorem countBoundary_dcr (s : State) :
    (countBoundary s).dcr = s.dcr := rfl
@[simp] theorem countBoundary_ibar0 (s : State) :
    (countBoundary s).ibar0 = s.ibar0 := rfl
@[simp] theorem countBoundary_ibar1 (s : State) :
    (countBoundary s).ibar1 = s.ibar1 := rfl
@[simp] theorem countBoundary_ssr (s : State) :
    (countBoundary s).ssr = s.ssr := rfl
@[simp] theorem countBoundary_sdr (s : State) :
    (countBoundary s).sdr = s.sdr := rfl
@[simp] theorem countBoundary_ext (s : State) :
    (countBoundary s).ext = s.ext := rfl
@[simp] theorem countBoundary_delay (s : State) :
    (countBoundary s).delay = s.delay := rfl
@[simp] theorem countBoundary_irqHold (s : State) :
    (countBoundary s).irqHold = s.irqHold - 1 := rfl
@[simp] theorem countBoundary_dbgHold (s : State) :
    (countBoundary s).dbgHold = false := rfl
@[simp] theorem countBoundary_dbgLatch (s : State) :
    (countBoundary s).dbgLatch = s.dbgLatch := rfl
@[simp] theorem countBoundary_ieEffective (s : State) :
    (countBoundary s).ieEffective = if s.ieLag = 1 then s.psr.ie else s.ieEffective := rfl
@[simp] theorem countBoundary_ieLag (s : State) :
    (countBoundary s).ieLag = s.ieLag - 1 := rfl
@[simp] theorem countBoundary_runState (s : State) :
    (countBoundary s).runState = s.runState := rfl
@[simp] theorem countBoundary_nmiArmed (s : State) :
    (countBoundary s).nmiArmed = s.nmiArmed := rfl
@[simp] theorem countBoundary_copro (s : State) :
    (countBoundary s).copro = s.copro := rfl
@[simp] theorem countBoundary_mem (s : State) :
    (countBoundary s).mem = s.mem := rfl
@[simp] theorem countBoundary_memMap (s : State) :
    (countBoundary s).memMap = s.memMap := rfl
@[simp] theorem countBoundary_codeRegion (s : State) :
    (countBoundary s).codeRegion = s.codeRegion := rfl
@[simp] theorem countBoundary_debugFw (s : State) :
    (countBoundary s).debugFw = s.debugFw := rfl
@[simp] theorem countBoundary_env (s : State) :
    (countBoundary s).env = s.env := rfl
@[simp] theorem countBoundary_accepted (s : State) :
    (countBoundary s).accepted = s.accepted := rfl
@[simp] theorem countBoundary_freeCount (s : State) :
    (countBoundary s).freeCount = s.freeCount := rfl

/-! ### `latchBreak` -/

@[simp] theorem latchBreak_regs (s : State) :
    (latchBreak s).regs = s.regs := rfl
@[simp] theorem latchBreak_pc (s : State) :
    (latchBreak s).pc = s.pc := rfl
@[simp] theorem latchBreak_sp (s : State) :
    (latchBreak s).sp = s.sp := rfl
@[simp] theorem latchBreak_psr (s : State) :
    (latchBreak s).psr = s.psr := rfl
@[simp] theorem latchBreak_ttbr (s : State) :
    (latchBreak s).ttbr = s.ttbr := rfl
@[simp] theorem latchBreak_dbram (s : State) :
    (latchBreak s).dbram = s.dbram := rfl
@[simp] theorem latchBreak_dcr (s : State) :
    (latchBreak s).dcr = s.dcr := rfl
@[simp] theorem latchBreak_ibar0 (s : State) :
    (latchBreak s).ibar0 = s.ibar0 := rfl
@[simp] theorem latchBreak_ibar1 (s : State) :
    (latchBreak s).ibar1 = s.ibar1 := rfl
@[simp] theorem latchBreak_ssr (s : State) :
    (latchBreak s).ssr = s.ssr := rfl
@[simp] theorem latchBreak_sdr (s : State) :
    (latchBreak s).sdr = s.sdr := rfl
@[simp] theorem latchBreak_ext (s : State) :
    (latchBreak s).ext = s.ext := rfl
@[simp] theorem latchBreak_delay (s : State) :
    (latchBreak s).delay = s.delay := rfl
@[simp] theorem latchBreak_irqHold (s : State) :
    (latchBreak s).irqHold = s.irqHold := rfl
@[simp] theorem latchBreak_dbgHold (s : State) :
    (latchBreak s).dbgHold = s.dbgHold := rfl
@[simp] theorem latchBreak_dbgLatch (s : State) :
    (latchBreak s).dbgLatch = (s.dbgLatch || instructionBreak s) := rfl
@[simp] theorem latchBreak_ieEffective (s : State) :
    (latchBreak s).ieEffective = s.ieEffective := rfl
@[simp] theorem latchBreak_ieLag (s : State) :
    (latchBreak s).ieLag = s.ieLag := rfl
@[simp] theorem latchBreak_runState (s : State) :
    (latchBreak s).runState = s.runState := rfl
@[simp] theorem latchBreak_nmiArmed (s : State) :
    (latchBreak s).nmiArmed = s.nmiArmed := rfl
@[simp] theorem latchBreak_copro (s : State) :
    (latchBreak s).copro = s.copro := rfl
@[simp] theorem latchBreak_mem (s : State) :
    (latchBreak s).mem = s.mem := rfl
@[simp] theorem latchBreak_memMap (s : State) :
    (latchBreak s).memMap = s.memMap := rfl
@[simp] theorem latchBreak_codeRegion (s : State) :
    (latchBreak s).codeRegion = s.codeRegion := rfl
@[simp] theorem latchBreak_debugFw (s : State) :
    (latchBreak s).debugFw = s.debugFw := rfl
@[simp] theorem latchBreak_env (s : State) :
    (latchBreak s).env = s.env := rfl
@[simp] theorem latchBreak_accepted (s : State) :
    (latchBreak s).accepted = s.accepted := rfl
@[simp] theorem latchBreak_freeCount (s : State) :
    (latchBreak s).freeCount = s.freeCount := rfl

/-! ### `applyInputs` -/

@[simp] theorem applyInputs_regs (s : State) (inp : Inputs) :
    (applyInputs inp s).regs = s.regs := rfl
@[simp] theorem applyInputs_pc (s : State) (inp : Inputs) :
    (applyInputs inp s).pc = s.pc := rfl
@[simp] theorem applyInputs_sp (s : State) (inp : Inputs) :
    (applyInputs inp s).sp = s.sp := rfl
@[simp] theorem applyInputs_psr (s : State) (inp : Inputs) :
    (applyInputs inp s).psr = s.psr := rfl
@[simp] theorem applyInputs_ttbr (s : State) (inp : Inputs) :
    (applyInputs inp s).ttbr = s.ttbr := rfl
@[simp] theorem applyInputs_dbram (s : State) (inp : Inputs) :
    (applyInputs inp s).dbram = s.dbram := rfl
@[simp] theorem applyInputs_dcr (s : State) (inp : Inputs) :
    (applyInputs inp s).dcr = { s.dcr with dr := s.dcr.dr || inp.debugRequest } := rfl
@[simp] theorem applyInputs_ibar0 (s : State) (inp : Inputs) :
    (applyInputs inp s).ibar0 = s.ibar0 := rfl
@[simp] theorem applyInputs_ibar1 (s : State) (inp : Inputs) :
    (applyInputs inp s).ibar1 = s.ibar1 := rfl
@[simp] theorem applyInputs_ssr (s : State) (inp : Inputs) :
    (applyInputs inp s).ssr = { s.ssr with tdbe := inp.serialTdbe.getD s.ssr.tdbe, rdbf := inp.serialRdbf.getD s.ssr.rdbf } := rfl
@[simp] theorem applyInputs_sdr (s : State) (inp : Inputs) :
    (applyInputs inp s).sdr = inp.serialData.getD s.sdr := rfl
@[simp] theorem applyInputs_ext (s : State) (inp : Inputs) :
    (applyInputs inp s).ext = s.ext := rfl
@[simp] theorem applyInputs_delay (s : State) (inp : Inputs) :
    (applyInputs inp s).delay = s.delay := rfl
@[simp] theorem applyInputs_irqHold (s : State) (inp : Inputs) :
    (applyInputs inp s).irqHold = s.irqHold := rfl
@[simp] theorem applyInputs_dbgHold (s : State) (inp : Inputs) :
    (applyInputs inp s).dbgHold = s.dbgHold := rfl
@[simp] theorem applyInputs_dbgLatch (s : State) (inp : Inputs) :
    (applyInputs inp s).dbgLatch = s.dbgLatch := rfl
@[simp] theorem applyInputs_ieEffective (s : State) (inp : Inputs) :
    (applyInputs inp s).ieEffective = s.ieEffective := rfl
@[simp] theorem applyInputs_ieLag (s : State) (inp : Inputs) :
    (applyInputs inp s).ieLag = s.ieLag := rfl
@[simp] theorem applyInputs_runState (s : State) (inp : Inputs) :
    (applyInputs inp s).runState = .running := rfl
@[simp] theorem applyInputs_nmiArmed (s : State) (inp : Inputs) :
    (applyInputs inp s).nmiArmed = s.nmiArmed := rfl
@[simp] theorem applyInputs_copro (s : State) (inp : Inputs) :
    (applyInputs inp s).copro = s.copro := rfl
@[simp] theorem applyInputs_mem (s : State) (inp : Inputs) :
    (applyInputs inp s).mem = s.mem := rfl
@[simp] theorem applyInputs_memMap (s : State) (inp : Inputs) :
    (applyInputs inp s).memMap = s.memMap := rfl
@[simp] theorem applyInputs_codeRegion (s : State) (inp : Inputs) :
    (applyInputs inp s).codeRegion = s.codeRegion := rfl
@[simp] theorem applyInputs_debugFw (s : State) (inp : Inputs) :
    (applyInputs inp s).debugFw = s.debugFw := rfl
@[simp] theorem applyInputs_env (s : State) (inp : Inputs) :
    (applyInputs inp s).env = s.env := rfl
@[simp] theorem applyInputs_accepted (s : State) (inp : Inputs) :
    (applyInputs inp s).accepted = s.accepted := rfl
@[simp] theorem applyInputs_freeCount (s : State) (inp : Inputs) :
    (applyInputs inp s).freeCount = s.freeCount := rfl

/-! ### Registers -/

@[simp] theorem reg_of_advance (s : State) (r : Reg) : (advance s).reg r = s.reg r := rfl
@[simp] theorem reg_of_setSp (s : State) (v : Word) (r : Reg) : (s.setSp v).reg r = s.reg r := rfl
@[simp] theorem reg_of_jumpTo (s : State) (a : Word) (r : Reg) : (jumpTo s a).reg r = s.reg r := rfl
@[simp] theorem reg_of_toReg (s : State) (i r : Reg) (v : Word) :
    (toReg i v s).reg r = (s.setReg i v).reg r := rfl

/-- A register reads what was written to it. -/
@[simp] theorem regs_get_set_self (r : Regs) (i : Reg) (v : Word) : (r.set i v).get i = v := by
  cases i <;> rfl

/-- A write leaves every other register alone. -/
theorem regs_get_set_other (r : Regs) (i j : Reg) (v : Word) (h : j ≠ i) :
    (r.set i v).get j = r.get j := by
  cases i <;> cases j <;> first | rfl | exact absurd rfl h

@[simp] theorem reg_setReg_self (s : State) (i : Reg) (v : Word) : (s.setReg i v).reg i = v :=
  regs_get_set_self _ _ _

theorem reg_setReg_other (s : State) (i j : Reg) (v : Word) (h : j ≠ i) :
    (s.setReg i v).reg j = s.reg j :=
  regs_get_set_other _ _ _ _ h

/-- Two register files that read alike are alike. -/
theorem regs_ext (p q : Regs) (h : ∀ r, p.get r = q.get r) : p = q := by
  have h0 := h .r0; have h1 := h .r1; have h2 := h .r2; have h3 := h .r3
  have h4 := h .r4; have h5 := h .r5; have h6 := h .r6; have h7 := h .r7
  cases p; cases q; simp_all [Regs.get]

end Sys2Proof.Machine
end

