-- ==== Sys2Proof/Laws/Ops.lean ====
section
/-!
SUPPORT. What each shared operation can do, said once: an inversion for every operation that can stop
("if it answers next, then ..."), and when the loads and stores complete. Later proofs cite these and
never unfold the operations.
-/

namespace Sys2Proof.Machine

/-! ### Results -/

@[simp] theorem bindRes_next {α β : Type} (a : α) (f : α → Res β) : bindRes (.next a) f = f a := rfl

@[simp] theorem bindRes_fault {α β : Type} (e : Fault) (f : α → Res β) :
    bindRes (.fault e) f = .fault e := rfl

@[simp] theorem bindRes_refused {α β : Type} (e : Refusal) (f : α → Res β) :
    bindRes (.refused e) f = .refused e := rfl

/-- A sequence answers next only if both parts do. -/
theorem bindRes_eq_next {α β : Type} {r : Res α} {f : α → Res β} {b : β} :
    bindRes r f = .next b ↔ ∃ a, r = .next a ∧ f a = .next b := by
  cases r <;> simp [bindRes]

/-! ### Bit fields -/

/-- Clearing the low `k` bits of an address, as a number. -/
theorem and_mask_toNat (k : Nat) (a m : Word) (hm : ∀ i < 24, m.getLsbD i = decide (k ≤ i)) :
    (a &&& m).toNat = a.toNat / 2 ^ k * 2 ^ k := by
  apply Nat.eq_of_testBit_eq
  intro i
  rw [BitVec.toNat_and, Nat.testBit_and, Nat.testBit_mul_two_pow, Nat.testBit_div_two_pow]
  by_cases hi : i < 24
  · have h := hm i hi
    rw [BitVec.getLsbD] at h
    rw [h]
    by_cases hki : k ≤ i <;> simp [hki]
  · have h1 : a.toNat.testBit i = false :=
      Nat.testBit_lt_two_pow (lt_of_lt_of_le a.isLt (Nat.pow_le_pow_right (by omega) (by omega)))
    by_cases hki : k ≤ i <;> simp [h1, hki]

theorem even_toNat (a : Word) : (even a).toNat = a.toNat / 2 * 2 := and_mask_toNat 1 a _ (by decide)

theorem align4_toNat (a : Word) : (align4 a).toNat = a.toNat / 4 * 4 := and_mask_toNat 2 a _ (by decide)

@[simp] theorem even_even (a : Word) : even (even a) = even a := by
  apply BitVec.eq_of_toNat_eq; simp only [even_toNat]; omega

@[simp] theorem align4_align4 (a : Word) : align4 (align4 a) = align4 a := by
  apply BitVec.eq_of_toNat_eq; simp only [align4_toNat]; omega

theorem even_iff (a : Word) : even a = a ↔ a.toNat % 2 = 0 := by
  rw [← BitVec.toNat_inj, even_toNat]; omega

theorem align4_iff (a : Word) : align4 a = a ↔ a.toNat % 4 = 0 := by
  rw [← BitVec.toNat_inj, align4_toNat]; omega

theorem low24_toNat (v : BitVec 32) : (low24 v).toNat = v.toNat % 2 ^ 24 := by
  simp [low24, BitVec.extractLsb'_toNat]

theorem topByte_toNat (v : BitVec 32) : (topByte v).toNat = v.toNat / 2 ^ 24 := by
  simp only [topByte, BitVec.extractLsb'_toNat, Nat.shiftRight_eq_div_pow]
  have := v.isLt
  omega

/-! ### Loads -/

theorem checkBytes_next (ok : Nat → Res Unit) (a n : Nat) (u : Unit) :
    checkBytes ok a n = .next u ↔ ∀ i < n, ok (a + i) = .next () := by
  induction n generalizing a with
  | zero => simp [checkBytes]
  | succ n ih =>
    rw [checkBytes, bindRes_eq_next]
    simp only [ih]
    constructor
    · rintro ⟨_, h0, h⟩ i hi
      cases i with
      | zero => exact h0
      | succ i => have := h i (by omega); rwa [show a + 1 + i = a + (i + 1) by omega] at this
    · intro h
      refine ⟨(), h 0 (by omega), fun i hi => ?_⟩
      have := h (i + 1) (by omega)
      rwa [show a + (i + 1) = a + 1 + i by omega] at this

/-- Where a check stops: at the first byte that may not be accessed. -/
theorem checkBytes_stops (ok : Nat → Res Unit) (a i n : Nat) (r : Res Unit) (hi : i < n)
    (hj : ∀ j < i, ok (a + j) = .next ()) (hr : ok (a + i) = r) (hs : ∀ u, r ≠ .next u) :
    checkBytes ok a n = r := by
  induction n generalizing a i with
  | zero => omega
  | succ n ih =>
    rw [checkBytes]
    cases i with
    | zero =>
      rw [show a = a + 0 from rfl, hr]
      cases r with
      | next u => exact absurd rfl (hs u)
      | fault e => rfl
      | refused e => rfl
    | succ i =>
      have h0 := hj 0 (by omega)
      rw [Nat.add_zero] at h0
      rw [h0, bindRes_next]
      refine ih (a + 1) i (by omega) (fun j hj' => ?_) ?_
      · have := hj (j + 1) (by omega)
        rwa [show a + (j + 1) = a + 1 + j by omega] at this
      · rwa [show a + (i + 1) = a + 1 + i by omega] at hr

theorem readable_next (s : State) (a : Nat) :
    readable s a = .next () ↔ kindAt s.memMap a = some .ram ∨ kindAt s.memMap a = some .rom := by
  unfold readable
  split <;> simp_all

theorem writable_next (s : State) (a : Nat) :
    writable s a = .next () ↔ kindAt s.memMap a = some .ram ∧ inCodeRegion s.codeRegion a = false := by
  unfold writable
  split
  · simp_all
  · simp_all
  · simp_all
  · split <;> simp_all

/-- Putting a byte below a value, as numbers. -/
theorem append8_toNat {n : Nat} (x : BitVec n) (y : BitVec 8) :
    (x ++ y).toNat = y.toNat + 256 * x.toNat := by
  rw [BitVec.toNat_append, ← Nat.shiftLeft_add_eq_or_of_lt y.isLt, Nat.shiftLeft_eq]
  omega

/-- A wide load as a number (R61, R62). -/
theorem loadBytes_toNat (m : Memory) (a : Nat) (w : Width) :
    (loadBytes m a w).toNat = bytesValue m a w.bytes := by
  cases w
  · exact (append8_toNat (0#24) _).trans rfl
  · refine (append8_toNat (0#16 ++ m.read (a + 1)) _).trans ?_
    have h := append8_toNat (0#16) (m.read (a + 1))
    exact congrArg (fun n => (m.read a).toNat + 256 * n) h
  · refine (append8_toNat (m.read (a + 3) ++ m.read (a + 2) ++ m.read (a + 1)) _).trans ?_
    rw [append8_toNat (m.read (a + 3) ++ m.read (a + 2)), append8_toNat (m.read (a + 3))]
    rfl

/-- When a load completes, and with what. -/
theorem memRead_next (s : State) (w : Width) (a : Word) (v : BitVec 32) :
    memRead s w a = .next v ↔ CanLoad s w a v := by
  unfold memRead CanLoad
  split
  · rfl
  · rw [bindRes_eq_next]
    simp only [checkBytes_next, readable_next, ← loadBytes_toNat]
    constructor
    · rintro ⟨_, h, h2⟩
      injection h2 with h2
      exact ⟨h, by rw [h2]⟩
    · rintro ⟨h, h2⟩
      exact ⟨(), h, by rw [BitVec.toNat_inj] at h2; rw [h2]⟩

/-! ### Stores -/

theorem coreWrite_completes (s : State) (w : Width) (a : Word) (v : BitVec 32)
    (h : coreRegisterAt w a = true) : ∃ u, coreWrite s w a v = .next u := by
  cases w <;> simp only [coreRegisterAt, Bool.or_eq_true, beq_iff_eq] at h
  · obtain ((rfl | rfl) | rfl) | rfl := h <;> exact ⟨_, rfl⟩
  · simp at h
  · obtain ((rfl | rfl) | rfl) | rfl := h <;> exact ⟨_, rfl⟩

theorem coreWrite_registerAt (s u : State) (w : Width) (a : Word) (v : BitVec 32)
    (h : coreWrite s w a v = .next u) : coreRegisterAt w a = true := by
  cases w <;> simp only [coreWrite] at h <;> simp only [coreRegisterAt, Bool.or_eq_true, beq_iff_eq]
  · split at h
    · exact .inl (.inl (.inl ‹_›))
    · split at h
      · exact .inl (.inl (.inr ‹_›))
      · split at h
        · exact .inl (.inr ‹_›)
        · split at h
          · exact .inr ‹_›
          · cases h
  · cases h
  · split at h
    · exact .inl (.inl (.inl ‹_›))
    · split at h
      · exact .inl (.inl (.inr ‹_›))
      · split at h
        · exact .inl (.inr ‹_›)
        · split at h
          · exact .inr ‹_›
          · cases h

/-- A write to the core's registers changes the five writable ones at most. -/
theorem coreWrite_frame (s u : State) (w : Width) (a : Word) (v : BitVec 32)
    (h : coreWrite s w a v = .next u) :
    ∃ d i0 i1 r b, u = { s with dcr := d, ibar0 := i0, ibar1 := i1, ssr := r, sdr := b } ∧ d.dm = s.dcr.dm ∧
      (i0 = s.ibar0 ∨ even i0 = i0) ∧ (i1 = s.ibar1 ∨ even i1 = i1) := by
  cases w <;> simp only [coreWrite] at h
  · split at h
    · cases h; exact ⟨s.dcr, s.ibar0, s.ibar1, s.ssr, s.sdr, rfl, rfl, .inl rfl, .inl rfl⟩
    · split at h
      · cases h; exact ⟨_, s.ibar0, s.ibar1, s.ssr, s.sdr, rfl, rfl, .inl rfl, .inl rfl⟩
      · split at h
        · cases h; exact ⟨s.dcr, s.ibar0, s.ibar1, _, s.sdr, rfl, rfl, .inl rfl, .inl rfl⟩
        · split at h
          · cases h; exact ⟨s.dcr, s.ibar0, s.ibar1, s.ssr, _, rfl, rfl, .inl rfl, .inl rfl⟩
          · cases h
  · cases h
  · split at h
    · cases h; exact ⟨s.dcr, s.ibar0, s.ibar1, s.ssr, s.sdr, rfl, rfl, .inl rfl, .inl rfl⟩
    · split at h
      · cases h; exact ⟨s.dcr, s.ibar0, s.ibar1, s.ssr, s.sdr, rfl, rfl, .inl rfl, .inl rfl⟩
      · split at h
        · cases h; exact ⟨s.dcr, _, s.ibar1, s.ssr, s.sdr, rfl, rfl, .inr (even_even _), .inl rfl⟩
        · split at h
          · cases h; exact ⟨s.dcr, s.ibar0, _, s.ssr, s.sdr, rfl, rfl, .inl rfl, .inr (even_even _)⟩
          · cases h

/-- A completed store is a write of the core's registers or of the bytes of memory (R63). -/
theorem memWrite_next (s u : State) (w : Width) (a : Word) (v : BitVec 32) :
    memWrite s w a v = .next u ↔
      if Config.coreAreaBase ≤ a then coreWrite s w a v = .next u
      else CanStore s w a ∧ u = { s with mem := storeBytes s.mem a.toNat v w } := by
  unfold memWrite CanStore
  split
  · rfl
  · rw [bindRes_eq_next]
    simp only [checkBytes_next, writable_next]
    constructor
    · rintro ⟨_, h, h2⟩
      injection h2 with h2
      exact ⟨h, h2.symm⟩
    · rintro ⟨h, h2⟩
      exact ⟨(), h, by rw [h2]⟩

/-- When a store completes (R63, R77, R79). -/
theorem memWrite_completes (s : State) (w : Width) (a : Word) (v : BitVec 32) :
    CanStore s w a ↔ ∃ u, memWrite s w a v = .next u := by
  constructor
  · intro h
    simp only [memWrite_next]
    split
    · rw [CanStore, if_pos (by assumption)] at h
      exact coreWrite_completes s w a v h
    · exact ⟨_, h, rfl⟩
  · rintro ⟨u, h⟩
    rw [memWrite_next] at h
    split at h
    · rw [CanStore, if_pos (by assumption)]
      exact coreWrite_registerAt s u w a v h
    · exact h.1

/-- A completed store changes memory and the writable core registers at most, and keeps the debug mode. -/
theorem memWrite_frame (s u : State) (w : Width) (a : Word) (v : BitVec 32)
    (h : memWrite s w a v = .next u) :
    ∃ m d i0 i1 r b,
      u = { s with mem := m, dcr := d, ibar0 := i0, ibar1 := i1, ssr := r, sdr := b } ∧ d.dm = s.dcr.dm ∧
        (i0 = s.ibar0 ∨ even i0 = i0) ∧ (i1 = s.ibar1 ∨ even i1 = i1) ∧
        (m = s.mem ∨ ¬ Config.coreAreaBase ≤ a ∧ m = storeBytes s.mem a.toNat v w) := by
  rw [memWrite_next] at h
  split at h
  · obtain ⟨d, i0, i1, r, b, rfl, h1, h2, h3⟩ := coreWrite_frame s u w a v h
    exact ⟨s.mem, d, i0, i1, r, b, rfl, h1, h2, h3, .inl rfl⟩
  · obtain ⟨-, rfl⟩ := h
    exact ⟨_, s.dcr, s.ibar0, s.ibar1, s.ssr, s.sdr, rfl, rfl, .inl rfl, .inl rfl, .inr ⟨by assumption, rfl⟩⟩

/-- An access below the core-reserved area stays inside the address space. -/
theorem below_core_fits (a : Word) (w : Width) (h : ¬ Config.coreAreaBase ≤ a) :
    a.toNat + w.bytes ≤ 2 ^ 24 := by
  have h1 : a.toNat < 0xfffc00 := by
    have := BitVec.not_le.mp h
    simpa [Config.coreAreaBase, BitVec.lt_def] using this
  cases w <;> simp only [Width.bytes] <;> omega

/-- What a completed store is, in the words of Safety.lean. -/
theorem memWrite_storedAt (s u : State) (w : Width) (a : Word) (v : BitVec 32)
    (h : memWrite s w a v = .next u) : StoredAt w a v s u := by
  have h0 := h
  rw [memWrite_next] at h
  split at h
  · rename_i hc
    have hn : ¬ a < Config.coreAreaBase := BitVec.not_lt.mpr hc
    obtain ⟨d, i0, i1, r, b, rfl, hd, -, -⟩ := coreWrite_frame s u w a v h
    exact {
      effect := ⟨fun _ _ => rfl, fun h1 => absurd h1 hn, fun h1 => absurd h1 hn,
        fun _ => ⟨fun _ => rfl, _, h, ⟨rfl, rfl, rfl, rfl, rfl, rfl, rfl⟩⟩⟩
      regs := rfl, pc := rfl, sp := rfl, psr := rfl, ext := rfl
      hidden := ⟨⟨rfl, rfl, rfl, rfl, rfl, rfl, rfl⟩, rfl⟩
      draws := ⟨rfl, rfl⟩, environment := ⟨rfl, rfl, rfl, rfl, rfl⟩, mode := hd, ttbr := rfl, dbram := rfl }
  · rename_i hc
    obtain ⟨-, rfl⟩ := h
    have hf := below_core_fits a w hc
    exact {
      effect := ⟨fun x hx => storeBytes_read_other _ _ _ _ _ hx,
        fun _ hw i hi => storeBytes_read_own _ _ _ _ hw hf i hi,
        fun _ => ⟨rfl, rfl, rfl, rfl, rfl, rfl, rfl⟩, fun h1 => absurd h1 hc⟩
      regs := rfl, pc := rfl, sp := rfl, psr := rfl, ext := rfl
      hidden := ⟨⟨rfl, rfl, rfl, rfl, rfl, rfl, rfl⟩, rfl⟩
      draws := ⟨rfl, rfl⟩, environment := ⟨rfl, rfl, rfl, rfl, rfl⟩, mode := rfl, ttbr := rfl, dbram := rfl }

/-- A completed store keeps the memory canonical. -/
theorem memWrite_wf (s u : State) (w : Width) (a : Word) (v : BitVec 32) (h : memWrite s w a v = .next u)
    (hw : s.mem.wf = true) : u.mem.wf = true := by
  obtain ⟨m, d, i0, i1, r, b, rfl, -, -, -, rfl | ⟨hc, rfl⟩⟩ := memWrite_frame s u w a v h
  · exact hw
  · exact storeBytes_wf _ _ _ _ hw (below_core_fits a w hc)

end Sys2Proof.Machine
end

