-- ==== Sys2Proof/Laws/Results.lean ====
section
/-!
SUPPORT. How the instructions end, in the words of Safety.lean: a register result, a flag result, an SP result,
a load and a store, aligned or not, each said once.
-/

namespace Sys2Proof.Machine

/-! ### Results -/

/-- A register result keeps all but its register, PSR and PC. -/
theorem toReg_endsPlainly (rd : Reg) (v : Word) (p : Psr) (s : State) :
    EndsPlainly [rd] s { toReg rd v s with psr := p } where
  system := ⟨fun r h => reg_setReg_other s rd r v (by simpa using h),
    ⟨rfl, rfl, rfl, rfl, rfl, rfl, rfl⟩, ⟨rfl, rfl, rfl, rfl, rfl⟩⟩
  hidden := ⟨⟨rfl, rfl, rfl, rfl, rfl, rfl, rfl⟩, rfl⟩
  draws := ⟨rfl, rfl⟩
  memory := fun _ => rfl
  advances := ⟨rfl, rfl⟩

/-- The end of a 16-bit result with its flags. -/
theorem toReg_writesRegAndPsr (rd : Reg) (v : Word) (p : Psr) (s : State) :
    WritesRegAndPsr rd v p s { toReg rd v s with psr := p } :=
  ⟨reg_setReg_self s rd v, rfl, rfl, toReg_endsPlainly rd v p s⟩

/-- The end of a result without flags. -/
theorem toReg_writesReg (rd : Reg) (v : Word) (s : State) : WritesReg rd v s (toReg rd v s) :=
  toReg_writesRegAndPsr rd v s.psr s

/-- The end of an instruction that writes PSR only. -/
theorem advance_writesPsr (p : Psr) (s : State) : WritesPsr p s { advance s with psr := p } :=
  ⟨rfl, rfl, ⟨⟨fun _ _ => rfl, ⟨rfl, rfl, rfl, rfl, rfl, rfl, rfl⟩, ⟨rfl, rfl, rfl, rfl, rfl⟩⟩,
    ⟨⟨rfl, rfl, rfl, rfl, rfl, rfl, rfl⟩, rfl⟩, ⟨rfl, rfl⟩, fun _ => rfl, ⟨rfl, rfl⟩⟩⟩

/-- The end of an instruction that writes SP only. -/
theorem advance_writesSp (v : Word) (s : State) : WritesSp (align4 v) s (advance (s.setSp v)) :=
  ⟨rfl, rfl, ⟨⟨fun _ _ => rfl, ⟨rfl, rfl, rfl, rfl, rfl, rfl, rfl⟩, ⟨rfl, rfl, rfl, rfl, rfl⟩⟩,
    ⟨⟨rfl, rfl, rfl, rfl, rfl, rfl, rfl⟩, rfl⟩, ⟨rfl, rfl⟩, fun _ => rfl, ⟨rfl, rfl⟩⟩⟩

/-! ### Loads and stores -/

theorem aligned_toNat (t : Transfer) (a : Word) :
    (t.aligned a).toNat = a.toNat / t.width.bytes * t.width.bytes := by
  cases t
  · simp [Transfer.aligned, Transfer.width, Width.bytes]
  · simp [Transfer.aligned, Transfer.width, Width.bytes]
  · exact even_toNat a
  · exact align4_toNat a

/-- An effective address is misaligned when it is not a multiple of the width (R66). -/
theorem misaligned_iff (t : Transfer) (a : Word) : t.misaligned a = true ↔ a.toNat % t.width.bytes ≠ 0 := by
  rw [Transfer.misaligned, bne_iff_ne, ne_eq, ← BitVec.toNat_inj, aligned_toNat]
  cases t <;> simp only [Transfer.width, Width.bytes] <;> omega

theorem aligned_of_multiple (t : Transfer) (a : Word) (h : a.toNat % t.width.bytes = 0) : t.aligned a = a := by
  rw [← BitVec.toNat_inj, aligned_toNat]
  cases t <;> simp only [Transfer.width, Width.bytes] at h ⊢ <;> omega

theorem endTransfer_aligned (t : Transfer) (a : Word) (s : State) (h : a.toNat % t.width.bytes = 0) :
    endTransfer t a s = .next (advance s) := by
  rw [endTransfer, if_neg (by rw [misaligned_iff]; simp [h])]

theorem endTransfer_misaligned (t : Transfer) (a : Word) (s : State) (h : a.toNat % t.width.bytes ≠ 0) :
    endTransfer t a s = raiseMisaligned s := by
  rw [endTransfer, if_pos ((misaligned_iff t a).mpr h)]

/-- A load from an address that can be read goes on to its end with the datum in the register. -/
theorem loadFrom_reads (t : Transfer) (rd : Reg) (ea : Word) (upd : State → State) (s : State) (v : BitVec 32)
    (h : CanLoad s t.width (t.aligned ea) v) :
    loadFrom t rd ea upd s = endTransfer t ea (upd (s.setReg rd (t.toRegister v))) := by
  rw [loadFrom, loadAt, (memRead_next s t.width (t.aligned ea) v).mpr h]
  rfl

/-- A store that can be written goes on to its end with the datum in memory. -/
theorem storeTo_writes (t : Transfer) (rs : Reg) (ea : Word) (upd : State → State) (s u : State)
    (h : memWrite s t.width (t.aligned ea) (zeroTop (s.reg rs)) = .next u) :
    storeTo t rs ea upd s = endTransfer t ea (upd u) := by
  rw [storeTo, storeAt, h]
  rfl

/-- A load that completes has read its datum and ended. -/
theorem loadFrom_next (t : Transfer) (rd : Reg) (ea : Word) (upd : State → State) (s r : State)
    (h : loadFrom t rd ea upd s = .next r) :
    ∃ v, CanLoad s t.width (t.aligned ea) v ∧
      endTransfer t ea (upd (s.setReg rd (t.toRegister v))) = .next r := by
  simp only [loadFrom, loadAt, bindRes_eq_next] at h
  obtain ⟨x, ⟨v, hv, hx⟩, h⟩ := h
  cases hx
  exact ⟨v, (memRead_next _ _ _ _).mp hv, h⟩

/-- A store that completes has written its datum and ended. -/
theorem storeTo_next (t : Transfer) (rs : Reg) (ea : Word) (upd : State → State) (s r : State)
    (h : storeTo t rs ea upd s = .next r) :
    ∃ u, memWrite s t.width (t.aligned ea) (zeroTop (s.reg rs)) = .next u ∧
      endTransfer t ea (upd u) = .next r := by
  simp only [storeTo, storeAt, bindRes_eq_next] at h
  exact h

/-- A transfer ends by advancing or by taking the address-misaligned interrupt (R443). -/
theorem endTransfer_next (t : Transfer) (ea : Word) (s r : State) (h : endTransfer t ea s = .next r) :
    r = advance s ∨ s.delay = none ∧ s.dcr.dm = false ∧ interruptEntry s .misaligned 1 s.pc = .next r := by
  rw [endTransfer] at h
  split at h
  · rw [raiseMisaligned] at h
    split at h
    · cases h
    · split at h
      · cases h
      · exact .inr ⟨by simpa using ‹¬ s.delay.isSome = true›, by simpa using ‹¬ s.dcr.dm = true›, h⟩
  · cases h; exact .inl rfl

/-! ### The stack, the vector table, entries and returns -/

theorem push_next (s u : State) (v : BitVec 32) (h : push s v = .next u) :
    memWrite (s.setSp (s.sp - 4)) .word (align4 (s.sp - 4)) v = .next u := h

/-- A store does not depend on SP: where it completes, the same store from another SP completes with the same
effect. -/
theorem memWrite_setSp (s u : State) (w : Width) (a v' : Word) (v : BitVec 32) :
    memWrite (s.setSp v') w a v = .next u ↔
      ∃ u0, memWrite s w a v = .next u0 ∧ u = { u0 with sp := align4 v' } := by
  have hstore : CanStore (s.setSp v') w a ↔ CanStore s w a := Iff.rfl
  simp only [memWrite_next]
  by_cases hc : Config.coreAreaBase ≤ a
  · simp only [if_pos hc]
    cases w <;> simp only [coreWrite]
    · split
      · simp [State.setSp, eq_comm]
      · split
        · simp [State.setSp, eq_comm]
        · split
          · simp [State.setSp, eq_comm]
          · split <;> simp [State.setSp, eq_comm]
    · simp
    · split
      · simp [State.setSp, eq_comm]
      · split
        · simp [State.setSp, eq_comm]
        · split
          · simp [State.setSp, eq_comm]
          · split <;> simp [State.setSp, eq_comm]
  · simp only [if_neg hc, hstore]
    constructor
    · rintro ⟨h, rfl⟩; exact ⟨_, ⟨h, rfl⟩, rfl⟩
    · rintro ⟨_, ⟨h, rfl⟩, rfl⟩; exact ⟨h, rfl⟩

/-- A push is one store and the decrement of SP (R341). -/
theorem push_eq_next (s u : State) (v : BitVec 32) :
    push s v = .next u ↔
      ∃ u0, memWrite s .word (align4 (s.sp - 4)) v = .next u0 ∧ u = { u0 with sp := align4 (s.sp - 4) } :=
  memWrite_setSp s u .word (align4 (s.sp - 4)) (s.sp - 4) v

/-- A pop is one load and the increment of SP (R341). -/
theorem pop_eq_next (s : State) (r : BitVec 32 × State) :
    pop s = .next r ↔ CanLoad s .word s.sp r.1 ∧ r.2 = s.setSp (s.sp + 4) := by
  obtain ⟨w, t⟩ := r
  simp only [pop, bindRes_eq_next, memRead_next]
  constructor
  · rintro ⟨v, h, h2⟩; cases h2; exact ⟨h, rfl⟩
  · rintro ⟨h, h2⟩; exact ⟨w, h, by rw [h2]⟩

/-- A read of the vector table takes bits 23:1 of the entry (R436). -/
theorem vectorRead_next (s : State) (v : BitVec 5) (a : Word) :
    vectorRead s v = .next a ↔ ∃ w, CanLoad s .word (vectorAddress s v) w ∧ a = even (low24 w) := by
  simp only [vectorRead, bindRes_eq_next, memRead_next]
  constructor
  · rintro ⟨w, h, h2⟩; cases h2; exact ⟨w, h, rfl⟩
  · rintro ⟨w, h, rfl⟩; exact ⟨w, h, rfl⟩

/-- What an interrupt entry does (R440): one store below SP, one read of the vector table, and the changes of
registers and hidden state. -/
theorem interruptEntry_next (s t : State) (kind : EntryKind) (v : BitVec 5) (ret : Word) :
    interruptEntry s kind v ret = .next t ↔
      ∃ u w, memWrite s .word (align4 (s.sp - 4)) (frameWord s.psr ret) = .next u ∧
        CanLoad u .word (vectorAddress s v) w ∧
        t = { u with
          sp := align4 (s.sp - 4)
          psr := { s.psr with ie := false, il := kind.levelAfter s.psr.il }
          ieEffective := false
          ieLag := 0
          pc := even (low24 w)
          ext := .none
          delay := none
          accepted := ⟨kind, v⟩ :: s.accepted } := by
  simp only [interruptEntry, bindRes_eq_next, push_eq_next, vectorRead_next]
  constructor
  · rintro ⟨_, ⟨u, hu, rfl⟩, _, ⟨w, hw, rfl⟩, h⟩
    cases h
    have hs := memWrite_storedAt _ _ _ _ _ hu
    refine ⟨u, w, hu, ?_, ?_⟩
    · rw [show vectorAddress s v = vectorAddress u v by simp [vectorAddress, hs.ttbr]]; exact hw
    · simp only [clearIe, hs.psr, hs.environment.accepted]
  · rintro ⟨u, w, hu, hw, rfl⟩
    have hs := memWrite_storedAt _ _ _ _ _ hu
    refine ⟨_, ⟨u, hu, rfl⟩, _, ⟨w, ?_, rfl⟩, ?_⟩
    · rw [show vectorAddress s v = vectorAddress u v by simp [vectorAddress, hs.ttbr]] at hw; exact hw
    · simp only [clearIe, hs.psr, hs.environment.accepted]

/-- What `int` and `intl` do (R385, R386). -/
theorem softwareInterrupt_next (s t : State) (v : BitVec 5) (level : Option (BitVec 3)) :
    softwareInterrupt s v level = .next t ↔ s.dcr.dm = false ∧
      ∃ u w, memWrite s .word (align4 (s.sp - 4)) (frameWord s.psr (s.pc + 2)) = .next u ∧
        CanLoad u .word (vectorAddress s v) w ∧
        t = { u with
          sp := align4 (s.sp - 4)
          psr := { s.psr with ie := false, il := level.getD s.psr.il }
          ieEffective := false
          ieLag := 0
          irqHold := max s.irqHold 1
          pc := even (low24 w)
          ext := .none } := by
  rw [softwareInterrupt]
  split
  · simp_all
  · rename_i hd
    simp only [Bool.not_eq_true] at hd
    simp only [hd, true_and, bindRes_eq_next, push_eq_next, vectorRead_next]
    constructor
    · rintro ⟨_, ⟨u, hu, rfl⟩, _, ⟨w, hw, rfl⟩, h⟩
      cases h
      have hs := memWrite_storedAt _ _ _ _ _ hu
      refine ⟨u, w, hu, ?_, ?_⟩
      · rw [show vectorAddress s v = vectorAddress u v by simp [vectorAddress, hs.ttbr]]; exact hw
      · simp only [clearIe, holdIrq, jumpTo, even_even, hs.psr, hs.hidden.acceptance.irqHold]
    · rintro ⟨u, w, hu, hw, rfl⟩
      have hs := memWrite_storedAt _ _ _ _ _ hu
      refine ⟨_, ⟨u, hu, rfl⟩, _, ⟨w, ?_, rfl⟩, ?_⟩
      · rw [show vectorAddress s v = vectorAddress u v by simp [vectorAddress, hs.ttbr]] at hw; exact hw
      · simp only [clearIe, holdIrq, jumpTo, even_even, hs.psr, hs.hidden.acceptance.irqHold]

/-- What the restore of `reti` does (R383). -/
theorem popFrame_next (s : State) (r : Word × State) :
    popFrame s = .next r ↔ ∃ w, CanLoad s .word s.sp w ∧
      r = (low24 w, { s.setSp (s.sp + 4) with
        psr := Psr.ofByte (topByte w), ieEffective := (Psr.ofByte (topByte w)).ie, ieLag := 0 }) := by
  simp only [popFrame, bindRes_eq_next, pop_eq_next]
  constructor
  · rintro ⟨⟨w, _⟩, ⟨h, rfl⟩, h2⟩; cases h2; exact ⟨w, h, rfl⟩
  · rintro ⟨w, h, rfl⟩; exact ⟨(w, _), ⟨h, rfl⟩, rfl⟩

/-- What a debug entry does (R460): two stores and the changes of mode and PC. -/
theorem debugEntry_next (s t : State) (ret : Word) :
    debugEntry s ret = .next t ↔
      ∃ u1 u2, memWrite s .word s.dbram (frameWord s.psr ret) = .next u1 ∧
        memWrite u1 .word (s.dbram + 4) (zeroTop (s.reg .r0)) = .next u2 ∧
        t = { u2 with
          dcr := { u2.dcr with dm := true }
          dbgLatch := false
          pc := Config.debugEntryAddress
          ext := .none
          delay := none } := by
  simp only [debugEntry, bindRes_eq_next]
  constructor
  · rintro ⟨u1, h1, u2, h2, h⟩
    have hs := memWrite_storedAt _ _ _ _ _ h1
    rw [State.reg, hs.regs, hs.dbram] at h2
    cases h
    exact ⟨u1, u2, h1, h2, rfl⟩
  · rintro ⟨u1, u2, h1, h2, rfl⟩
    have hs := memWrite_storedAt _ _ _ _ _ h1
    refine ⟨u1, h1, u2, ?_, rfl⟩
    rw [State.reg, hs.regs, hs.dbram]
    exact h2

/-- What the restore of `retd` does (R388, R462). -/
theorem debugReturn_next (s t : State) :
    debugReturn s = .next t ↔
      ∃ w0 w, CanLoad s .word (s.dbram + 4) w0 ∧ CanLoad s .word s.dbram w ∧
        t = { s.setReg .r0 (low24 w0) with
          pc := even (low24 w)
          psr := Psr.ofByte (topByte w)
          ieEffective := (Psr.ofByte (topByte w)).ie
          ieLag := 0
          dcr := { s.dcr with dm := false }
          irqHold := max s.irqHold 1
          dbgHold := true
          ext := .none } := by
  simp only [debugReturn, bindRes_eq_next, memRead_next]
  constructor
  · rintro ⟨w0, h0, w, h, h2⟩; cases h2; exact ⟨w0, w, h0, h, rfl⟩
  · rintro ⟨w0, w, h0, h, rfl⟩; exact ⟨w0, h0, w, h, rfl⟩

end Sys2Proof.Machine
end

