-- ==== Sys2Proof/Laws/Numbers.lean ====
section
/-!
SUPPORT. Every operand form, flag computation, shift, branch target and saved word read as a number: what each
operation of Operands.lean and Flags.lean gives, in the words of Safety.lean.
-/

namespace Sys2Proof.Machine

/-! ### Bit vectors as numbers -/

theorem zext24_toNat (v : BitVec 16) : (zext24 v).toNat = v.toNat := by
  simp only [zext24, BitVec.toNat_setWidth]; omega

theorem low16_toNat (v : Word) : (low16 v).toNat = v.toNat % 0x10000 := by
  rw [low16, extract_toNat]; simp

theorem eq_ofNat_of_toNat {n : Nat} (x : BitVec n) (m : Nat) (h : x.toNat = m) : x = BitVec.ofNat n m := by
  rw [← h, BitVec.ofNat_toNat, BitVec.setWidth_eq]

/-- A sign extension as a number. -/
theorem signExtend_toNat {n m : Nat} (hnm : n ≤ m) (v : BitVec n) :
    (v.signExtend m).toNat = if v.toNat < 2 ^ (n - 1) then v.toNat else v.toNat + 2 ^ m - 2 ^ n := by
  rw [BitVec.toNat_signExtend, BitVec.toNat_setWidth, BitVec.msb_eq_decide]
  have h1 := v.isLt
  have h2 : 2 ^ n ≤ 2 ^ m := Nat.pow_le_pow_right (by omega) hnm
  rw [Nat.mod_eq_of_lt (by omega)]
  by_cases h : v.toNat < 2 ^ (n - 1)
  · simp [h]
  · simp [h, Nat.not_lt.mp h]; omega

/-! ### Operand forms (R141 to R149, R273) -/

theorem disp_toNat (e : ExtPending) : e.disp.toNat = dispNat e := by
  cases e with
  | none => rfl
  | one e1 => simp only [ExtPending.disp, dispNat, BitVec.toNat_setWidth]; have := e1.isLt; omega
  | two e1 e2 =>
    simp only [ExtPending.disp, dispNat, pair24]
    refine (append_toNat _ _).trans ?_
    rw [extract_toNat]; simp

theorem stepOr_toNat (e : ExtPending) (t : Transfer) : (e.stepOr t.size).toNat = stepNat t.width.bytes e := by
  cases e with
  | none => cases t <;> rfl
  | one e1 => simp only [ExtPending.stepOr, stepNat, BitVec.toNat_setWidth]; have := e1.isLt; omega
  | two e1 e2 =>
    simp only [ExtPending.stepOr, stepNat, pair24]
    refine (append_toNat _ _).trans ?_
    rw [extract_toNat]; simp

theorem imm24_toNat (imm7 : BitVec 7) (e : ExtPending) : (e.imm24 imm7).toNat = immNat24 imm7 e := by
  have h7 := imm7.isLt
  cases e with
  | none => simp only [ExtPending.imm24, immNat24, BitVec.toNat_setWidth]; omega
  | one e1 =>
    simp only [ExtPending.imm24, immNat24, BitVec.toNat_setWidth, append_toNat]
    have := e1.isLt
    omega
  | two e1 e2 =>
    simp only [ExtPending.imm24, immNat24]
    have h := append_toNat (e1.extractLsb' 0 4 ++ e2) imm7
    rw [append_toNat (e1.extractLsb' 0 4) e2, extract_toNat] at h
    refine h.trans ?_
    simp; omega

theorem sign16_next (v : BitVec 7) (s : State) (h : AtMostOneExt s) :
    ∃ x, s.ext.sign16 v = .next x ∧ x.toNat = signNat16 v s.ext := by
  rcases he : s.ext with _ | e1 | ⟨e1, e2⟩
  · refine ⟨_, rfl, ?_⟩
    rw [signExtend_toNat (by omega)]
    simp only [signNat16]
    have := v.isLt
    split <;> simp_all
  · refine ⟨_, rfl, ?_⟩
    refine (append_toNat (e1.extractLsb' 0 9) v).trans ?_
    rw [extract_toNat]; simp [signNat16]
  · exact absurd he (h e1 e2)

theorem imm16_next (v : BitVec 7) (s : State) (h : AtMostOneExt s) :
    ∃ x, s.ext.imm16 v = .next x ∧ x.toNat = immNat16 v s.ext := by
  rcases he : s.ext with _ | e1 | ⟨e1, e2⟩
  · refine ⟨_, rfl, ?_⟩
    simp only [BitVec.toNat_setWidth, immNat16]
    have := v.isLt
    omega
  · refine ⟨_, rfl, ?_⟩
    refine (append_toNat (e1.extractLsb' 0 9) v).trans ?_
    rw [extract_toNat]; simp [immNat16]
  · exact absurd he (h e1 e2)

theorem firstOperand16_toNat (s : State) (rd rs : Reg) : (firstOperand16 s rd rs).toNat = firstNat16 s rd rs := by
  unfold firstOperand16 firstNat16
  rcases s.ext with _ | e1 | ⟨e1, e2⟩ <;> exact low16_toNat _

theorem secondOperand16_toNat (s : State) (rs : Reg) : (secondOperand16 s rs).toNat = secondNat16 s rs := by
  unfold secondOperand16 secondNat16
  rcases s.ext with _ | e1 | ⟨e1, e2⟩
  · exact low16_toNat _
  · simp only [BitVec.toNat_setWidth]; have := e1.isLt; omega
  · refine (append_toNat _ _).trans ?_
    rw [extract_toNat]; simp

theorem firstOperand24_toNat (s : State) (x : Word) (rs : Reg) :
    (firstOperand24 s x rs).toNat = firstNat24 s x rs := by
  unfold firstOperand24 firstNat24
  rcases s.ext with _ | e1 | ⟨e1, e2⟩ <;> rfl

theorem secondOperand24_toNat (s : State) (rs : Reg) : (secondOperand24 s rs).toNat = secondNat24 s rs := by
  unfold secondOperand24 secondNat24
  rcases s.ext with _ | e1 | ⟨e1, e2⟩
  · rfl
  · simp only [BitVec.toNat_setWidth]; have := e1.isLt; omega
  · refine (append_toNat _ _).trans ?_
    rw [extract_toNat]; simp

/-! ### Memory data (R64, R66, R160) -/

theorem toRegister_eq (t : Transfer) (v : BitVec 32) : t.toRegister v = loadedValue t v := by
  have hv := v.isLt
  cases t <;> simp only [Transfer.toRegister, loadedValue]
  · apply eq_ofNat_of_toNat
    rw [zext24_toNat, signExtend_toNat (by omega), extract_toNat]; simp [byteTo16]
  · apply eq_ofNat_of_toNat
    rw [BitVec.toNat_setWidth, extract_toNat]; simp; omega
  · apply eq_ofNat_of_toNat
    rw [zext24_toNat, extract_toNat]; simp
  · rw [← BitVec.toNat_inj, low24_toNat]; simp

theorem alignedTo_eq (t : Transfer) (a : Word) : alignedTo t a = t.aligned a := by
  rw [alignedTo, ← aligned_toNat, BitVec.ofNat_toNat, BitVec.setWidth_eq]

/-! ### Flags (R270, R271, R298, R321, R420) -/

/-- V, Z and N of a 16-bit result whose overflow is that of the exact signed value. -/
theorem withVZN_eq (p : Psr) (res : BitVec 16) (overflow : Bool) (exact' : Int)
    (h : overflow = decide (exact' < -0x8000 ∨ 0x7fff < exact')) :
    p.withVZN res overflow = flagsVZN p res.toNat exact' := by
  simp only [Psr.withVZN, flagsVZN, h, BitVec.msb_eq_decide]
  congr 1
  rw [Bool.eq_iff_iff]; simp [← BitVec.toNat_inj]

theorem add16_value (a b : BitVec 16) (c : Bool) :
    (add16 a b c).value.toNat = (a.toNat + b.toNat + c.toNat) % 0x10000 := by simp [add16]

theorem add16_flags (p : Psr) (a b : BitVec 16) (c : Bool) :
    (p.withVZN (add16 a b c).value (add16 a b c).overflow).withC (add16 a b c).carry =
      sumFlags p a.toNat b.toNat c.toNat := by
  have h2 : p.withVZN (add16 a b c).value (add16 a b c).overflow =
      flagsVZN p (add16 a b c).value.toNat (signed16 a.toNat + signed16 b.toNat + c.toNat) := by
    apply withVZN_eq
    have ha := a.isLt
    have hb := b.isLt
    have hc : c.toNat ≤ 1 := by cases c <;> simp
    simp only [add16, BitVec.msb_eq_decide, BitVec.toNat_ofNat, signed16]
    rw [Bool.eq_iff_iff]
    simp only [Bool.and_eq_true, beq_iff_eq, bne_iff_ne, ne_eq, decide_eq_decide]
    split <;> split <;> constructor <;> intro h <;> norm_num at * <;> omega
  rw [h2, add16_value]
  rfl

theorem sub16_value (a b : BitVec 16) (c : Bool) :
    (sub16 a b c).value.toNat = differenceNat a.toNat b.toNat c.toNat := by
  have ha := a.isLt
  have hb := b.isLt
  have hc : c.toNat ≤ 1 := by cases c <;> simp
  simp only [sub16, differenceNat, BitVec.toNat_ofInt]; omega

theorem sub16_flags (p : Psr) (a b : BitVec 16) (c : Bool) :
    (p.withVZN (sub16 a b c).value (sub16 a b c).overflow).withC (sub16 a b c).carry =
      differenceFlags p a.toNat b.toNat c.toNat := by
  have ha := a.isLt
  have hb := b.isLt
  have hc : c.toNat ≤ 1 := by cases c <;> simp
  have h2 : p.withVZN (sub16 a b c).value (sub16 a b c).overflow =
      flagsVZN p (sub16 a b c).value.toNat (signed16 a.toNat - signed16 b.toNat - c.toNat) := by
    apply withVZN_eq
    have h3 : (sub16 a b c).overflow = ((a.msb != b.msb) && ((sub16 a b c).value.msb != a.msb)) := rfl
    rw [h3]
    simp only [BitVec.msb_eq_decide, sub16_value, differenceNat, signed16]
    rw [Bool.eq_iff_iff]
    simp only [Bool.and_eq_true, bne_iff_ne, ne_eq, decide_eq_decide]
    split <;> split <;> constructor <;> intro h <;> norm_num at * <;> omega
  rw [h2, sub16_value, differenceFlags]
  simp only [Psr.withC, sub16]
  congr 1
  rw [decide_eq_decide]; omega

theorem shiftAmount_eq (x : Nat) : shiftAmount x = shiftBits x := by
  unfold shiftAmount shiftBits
  split <;> split <;> (try split) <;> (try split) <;> omega

theorem withCopro_eq (p : Psr) (f : BitVec 4) : p.withCopro f = coproPsr p f := by
  simp [Psr.withCopro, coproPsr, -BitVec.getLsbD_eq_getElem, getLsbD_div]

/-! ### Branch targets (R340) -/

theorem rel7_toNat (v : BitVec 7) (e : ExtPending) :
    ((e.rel7 v).toNat : Int) % 2 ^ 24 = rel7Int v e % 2 ^ 24 := by
  have hv := v.isLt
  cases e with
  | none =>
    simp only [ExtPending.rel7, rel7Int]
    rw [signExtend_toNat (by omega), append_toNat, BitVec.toInt_eq_toNat_cond]
    simp only [BitVec.toNat_ofNat]
    simp only [Nat.reduceAdd, Nat.reduceSub, Nat.reducePow, Nat.reduceMod, Nat.add_zero, Int.reducePow]
    split <;> split <;> push_cast <;> omega
  | one e1 =>
    have := e1.isLt
    simp only [ExtPending.rel7, rel7Int]
    rw [signExtend_toNat (by omega), append_toNat, append_toNat, BitVec.toInt_eq_toNat_cond]
    simp only [BitVec.toNat_ofNat]
    simp only [Nat.reduceAdd, Nat.reduceSub, Nat.reducePow, Nat.reduceMod, Nat.add_zero, Int.reducePow]
    split <;> split <;> push_cast <;> omega
  | two e1 e2 =>
    simp only [ExtPending.rel7, rel7Int]
    have h := append_toNat (e1.extractLsb' 0 3 ++ e2 ++ v) (0#1)
    rw [append_toNat (e1.extractLsb' 0 3 ++ e2) v, append_toNat (e1.extractLsb' 0 3) e2, extract_toNat] at h
    refine (congrArg (fun n : Nat => (n : Int) % 2 ^ 24) h).trans ?_
    simp

theorem rel10_next (v : BitVec 10) (s : State) (ha : AtMostOneExt s) :
    ∃ d, s.ext.rel10 v = .next d ∧ (d.toNat : Int) % 2 ^ 24 = rel10Int v s.ext % 2 ^ 24 := by
  have hv := v.isLt
  rcases he : s.ext with _ | e1 | ⟨e1, e2⟩
  · refine ⟨_, rfl, ?_⟩
    simp only [rel10Int]
    rw [signExtend_toNat (by omega), append_toNat, BitVec.toInt_eq_toNat_cond]
    simp only [BitVec.toNat_ofNat]
    simp only [Nat.reduceAdd, Nat.reduceSub, Nat.reducePow, Nat.reduceMod, Nat.add_zero, Int.reducePow]
    split <;> split <;> push_cast <;> omega
  · refine ⟨_, rfl, ?_⟩
    simp only [rel10Int]
    have := e1.isLt
    have h := append_toNat (e1 ++ v) (0#1)
    rw [append_toNat e1 v] at h
    refine (congrArg (fun n : Nat => (n : Int) % 2 ^ 24) h).trans ?_
    rw [BitVec.toInt_eq_toNat_cond]
    simp
    split <;> omega
  · exact absurd he (ha e1 e2)

theorem relTarget_eq (s : State) (d : Word) (i : Int) (h : (d.toNat : Int) % 2 ^ 24 = i % 2 ^ 24) :
    relTarget s d = relativeTarget s i := by
  rw [relTarget, relativeTarget, ← BitVec.toNat_inj, BitVec.toNat_ofInt, BitVec.toNat_add, BitVec.toNat_add]
  simp; omega

/-! ### Saved words (R65, R71, R436) -/

theorem toByte_toNat (p : Psr) : p.toByte.toNat = psrToNat p := by
  rcases p with ⟨il, ie, c, v, z, n⟩
  have h := append_toNat
    (il ++ BitVec.ofBool ie ++ BitVec.ofBool c ++ BitVec.ofBool v ++ BitVec.ofBool z) (BitVec.ofBool n)
  rw [append_toNat (il ++ BitVec.ofBool ie ++ BitVec.ofBool c ++ BitVec.ofBool v) (BitVec.ofBool z),
    append_toNat (il ++ BitVec.ofBool ie ++ BitVec.ofBool c) (BitVec.ofBool v),
    append_toNat (il ++ BitVec.ofBool ie) (BitVec.ofBool c), append_toNat il (BitVec.ofBool ie)] at h
  refine h.trans ?_
  simp only [psrToNat, BitVec.toNat_ofBool]; omega

theorem frameWord_eq (p : Psr) (a : Word) : frameWord p a = savedWord p a := by
  have h := append_toNat p.toByte a
  rw [toByte_toNat] at h
  exact eq_ofNat_of_toNat (n := 32) (p.toByte ++ a) _ (h.trans (by simp))

theorem ofByte_topByte (w : BitVec 32) : Psr.ofByte (topByte w) = psrOfNat (w.toNat / 0x1000000) := by
  have h := topByte_toNat w
  simp only [Psr.ofByte, psrOfNat, getLsbD_div, h]
  congr 1
  · rw [← BitVec.toNat_inj, extract_toNat, h]; simp
  · simp

/-- PSR is read back as it was saved. -/
@[simp] theorem ofByte_toByte (p : Psr) : Psr.ofByte p.toByte = p := by
  rcases p with ⟨il, ie, c, v, z, n⟩
  revert il ie c v z n
  decide

@[simp] theorem topByte_frameWord (p : Psr) (a : Word) : topByte (frameWord p a) = p.toByte := by
  have h := append_toNat p.toByte a
  have := a.isLt
  rw [← BitVec.toNat_inj, topByte_toNat, frameWord, h]; omega

@[simp] theorem low24_frameWord (p : Psr) (a : Word) : low24 (frameWord p a) = a := by
  have h := append_toNat p.toByte a
  have := a.isLt
  rw [← BitVec.toNat_inj, low24_toNat, frameWord, h]; omega

@[simp] theorem low24_zeroTop (a : Word) : low24 (zeroTop a) = a := by
  have h := append_toNat (0#8) a
  have := a.isLt
  rw [← BitVec.toNat_inj, low24_toNat, zeroTop, h]; simp; omega

/-- Bits 23:1 of a word, as a target. -/
theorem even_low24 (w : BitVec 32) : even (low24 w) = BitVec.ofNat 24 (w.toNat / 2 * 2) := by
  rw [← BitVec.toNat_inj, even_toNat, low24_toNat]; simp; omega

theorem vectorAddress_eq (s : State) (v : BitVec 5) :
    vectorAddress s v = s.ttbr + BitVec.ofNat 24 (4 * v.toNat) := by
  rw [vectorAddress]
  congr 1
  rw [← BitVec.toNat_inj]; simp [BitVec.toNat_mul]; omega

/-- PC after reset is the reset vector: bits 23:1 of the word at TTBR, which a memory with nothing listed holds
as 0 (R50, R490). -/
theorem Laws.reset_pc_is_the_reset_vector :
    memRead State.reset .word State.reset.ttbr = .next 0 ∧ State.reset.pc = even (low24 0) := ⟨rfl, rfl⟩

end Sys2Proof.Machine
end

