-- ==== Sys2Proof/Laws/Step.lean ====
section
/-!
SUPPORT. What the parts of a step can do: which instructions a slot admits, when the core goes on, what a fetch
reads and where it stops, and a step that runs an instruction.
-/

namespace Sys2Proof.Machine

/-- `allowedInSlot` is the list of R343. -/
theorem allowedInSlot_eq_false_iff (i : Instr) : allowedInSlot i = false ↔ ForbiddenInSlot i := by
  constructor
  · intro h
    have : Nonempty Reg := ⟨.r0⟩
    cases i <;> first | exact Bool.noConfusion (show true = false from h) | simp [ForbiddenInSlot, forbiddenInSlot]
  · rintro ⟨rb, imm7, sign10, imm13, vec, level, h⟩
    have hall : (forbiddenInSlot rb imm7 sign10 imm13 vec level).all (fun j => !allowedInSlot j) = true := rfl
    simpa using List.all_eq_true.mp hall i h

/-- `awake` is the condition of R402 and R403. -/
theorem awake_iff (s : State) (inp : Inputs) : awake s.runState inp = true ↔ GoesOn s inp := by
  unfold awake GoesOn
  cases s.runState <;> simp

/-- A fetch that reads its two bytes reads the code they make. -/
theorem fetch_reads (m : Memory) (s : State) (h : FetchesFrom m s) : fetch s = .next (codeAt m s.pc) := by
  unfold FetchesFrom at h
  unfold fetch
  split at h
  · rename_i hc
    rw [if_pos hc, h]
  · rename_i hc
    obtain ⟨rfl, hk⟩ := h
    rw [if_neg hc]
    have : checkBytes (readable s) s.pc.toNat 2 = .next () :=
      (checkBytes_next _ _ _ _).mpr fun i hi => (readable_next s _).mpr (hk i hi)
    rw [this, bindRes_next]

/-- What two bytes decode to is what their code decodes to. -/
theorem decodeBytes_code (m : Memory) (a : Word) (i : Instr) :
    decodeBytes [m.read a.toNat, m.read (a.toNat + 1)] = .ok (i, []) ↔ decodeWord (codeAt m a) = some i := by
  simp only [decodeBytes, codeAt]
  split <;> simp_all

/-- The next state, fault or refusal of a step that runs an instruction is that of the fetch and the
instruction. -/
theorem step_runsNext (s : State) (h : RunsInstruction s) : step s = runNext (afterBoundary s) := by
  have h2 : awake (consumeInputs s).runState (inputsNow s) = true := h.awake
  have h3 := h.noRequest
  simp only [step, cycle, h.noReset, h2, boundary, afterBoundary, if_true, Bool.false_eq_true, if_false]
  split
  · rename_i hq
    rw [hq] at h3
    cases h3
  · rename_i hq
    rw [hq]

end Sys2Proof.Machine
end

