-- ==== Sys2Proof/WellFormed.lean ====
section
/-!
DEFINITION. Which instruction terms are well formed. The operand types already bound every field
(3-bit register numbers, 5-, 7-, 10- and 13-bit immediates), so the one thing left to check is the
register overlap of rule R162: a load in a modifying mode whose destination is its own base
register, and a pre-decrement store whose source is its own base register. Such a word decodes,
and executing it is the fault of R162 (`Fault.modifyRegisterOverlap`).
-/

namespace Sys2Proof

/-- R162: the register operands of a modifying transfer do not collide. -/
def Instr.wellFormed : Instr → Bool
  | .ldbLoadInd _ _ => true
  | .ldbLoadPostInc rd rb => rd != rb
  | .ldbLoadPostDec rd rb => rd != rb
  | .ldbLoadPreDec rd rb => rd != rb
  | .ldubLoadInd _ _ => true
  | .ldubLoadPostInc rd rb => rd != rb
  | .ldubLoadPostDec rd rb => rd != rb
  | .ldubLoadPreDec rd rb => rd != rb
  | .ldLoadInd _ _ => true
  | .ldLoadPostInc rd rb => rd != rb
  | .ldLoadPostDec rd rb => rd != rb
  | .ldLoadPreDec rd rb => rd != rb
  | .ldaLoadInd _ _ => true
  | .ldaLoadPostInc rd rb => rd != rb
  | .ldaLoadPostDec rd rb => rd != rb
  | .ldaLoadPreDec rd rb => rd != rb
  | .ldbStoreInd _ _ => true
  | .ldbStorePostInc _ _ => true
  | .ldbStorePostDec _ _ => true
  | .ldbStorePreDec rb rs => rs != rb
  | .ldStoreInd _ _ => true
  | .ldStorePostInc _ _ => true
  | .ldStorePostDec _ _ => true
  | .ldStorePreDec rb rs => rs != rb
  | .ldaStoreInd _ _ => true
  | .ldaStorePostInc _ _ => true
  | .ldaStorePostDec _ _ => true
  | .ldaStorePreDec rb rs => rs != rb
  | .ldbRR _ _ => true
  | .ldubRR _ _ => true
  | .ldRR _ _ => true
  | .ldaRR _ _ => true
  | .cvla _ _ => true
  | .cvab _ _ => true
  | .cvls _ _ => true
  | .cvas _ _ => true
  | .cval _ _ => true
  | .andRR _ _ => true
  | .andC _ _ => true
  | .andNC _ _ => true
  | .andImm _ _ => true
  | .orRR _ _ => true
  | .orC _ _ => true
  | .orNC _ _ => true
  | .orImm _ _ => true
  | .xorRR _ _ => true
  | .xorC _ _ => true
  | .xorNC _ _ => true
  | .xorImm _ _ => true
  | .notRR _ _ => true
  | .notC _ _ => true
  | .notNC _ _ => true
  | .notImm _ _ => true
  | .srRR _ _ => true
  | .srImm _ _ => true
  | .saRR _ _ => true
  | .saImm _ _ => true
  | .slRR _ _ => true
  | .slImm _ _ => true
  | .swap _ _ => true
  | .addRR _ _ => true
  | .addC _ _ => true
  | .addNC _ _ => true
  | .addImm _ _ => true
  | .adcRR _ _ => true
  | .adcC _ _ => true
  | .adcNC _ _ => true
  | .adcImm _ _ => true
  | .subRR _ _ => true
  | .subC _ _ => true
  | .subNC _ _ => true
  | .subImm _ _ => true
  | .sbcRR _ _ => true
  | .sbcC _ _ => true
  | .sbcNC _ _ => true
  | .sbcImm _ _ => true
  | .cmpRR _ _ => true
  | .cmpC _ _ => true
  | .cmpNC _ _ => true
  | .cmpImm _ _ => true
  | .cmcRR _ _ => true
  | .cmcC _ _ => true
  | .cmcNC _ _ => true
  | .cmcImm _ _ => true
  | .addaRR _ _ => true
  | .addaC _ _ => true
  | .addaNC _ _ => true
  | .addaImm _ _ => true
  | .addaSpRs _ => true
  | .addaSpImm _ => true
  | .subaRR _ _ => true
  | .subaC _ _ => true
  | .subaNC _ _ => true
  | .subaImm _ _ => true
  | .subaSpRs _ => true
  | .subaSpImm _ => true
  | .cmpaRR _ _ => true
  | .cmpaC _ _ => true
  | .cmpaNC _ _ => true
  | .cmpaImm _ _ => true
  | .ldcwRR _ _ => true
  | .ldcwImm _ _ => true
  | .ldcaRR _ _ => true
  | .ldcaImm _ _ => true
  | .ldcfRR _ _ => true
  | .ldcfImm _ _ => true
  | .ldImm _ _ => true
  | .ldaImm _ _ => true
  | .ldaSpImm _ => true
  | .ldaRdSp _ => true
  | .ldaRdPc _ => true
  | .ldaSpRs _ => true
  | .ldaLoadSp _ => true
  | .ldaLoadSpPostInc _ => true
  | .ldaLoadSpPostDec _ => true
  | .ldaLoadSpPreDec _ => true
  | .ldaStoreSp _ => true
  | .ldaStoreSpPostInc _ => true
  | .ldaStoreSpPostDec _ => true
  | .ldaStoreSpPreDec _ => true
  | .ldbLoadAbs _ _ => true
  | .ldbLoadSpDisp _ _ => true
  | .ldbStoreAbs _ _ => true
  | .ldbStoreSpDisp _ _ => true
  | .ldubLoadAbs _ _ => true
  | .ldubLoadSpDisp _ _ => true
  | .ldLoadAbs _ _ => true
  | .ldLoadSpDisp _ _ => true
  | .ldStoreAbs _ _ => true
  | .ldStoreSpDisp _ _ => true
  | .ldaLoadAbs _ _ => true
  | .ldaLoadSpDisp _ _ => true
  | .ldaStoreAbs _ _ => true
  | .ldaStoreSpDisp _ _ => true
  | .ext _ => true
  | .nop => true
  | .halt => true
  | .slp => true
  | .ei => true
  | .di => true
  | .jprImm _ => true
  | .jprDelayedImm _ => true
  | .jprReg _ => true
  | .jprDelayedReg _ => true
  | .jpaImm _ => true
  | .jpaDelayedImm _ => true
  | .jpaReg _ => true
  | .jpaDelayedReg _ => true
  | .jrgt _ => true
  | .jrgtDelayed _ => true
  | .jrge _ => true
  | .jrgeDelayed _ => true
  | .jrlt _ => true
  | .jrltDelayed _ => true
  | .jrle _ => true
  | .jrleDelayed _ => true
  | .jrugt _ => true
  | .jrugtDelayed _ => true
  | .jruge _ => true
  | .jrugeDelayed _ => true
  | .jrult _ => true
  | .jrultDelayed _ => true
  | .jrule _ => true
  | .jruleDelayed _ => true
  | .jreq _ => true
  | .jreqDelayed _ => true
  | .jrne _ => true
  | .jrneDelayed _ => true
  | .callImm _ => true
  | .callDelayedImm _ => true
  | .callReg _ => true
  | .callDelayedReg _ => true
  | .callaImm _ => true
  | .callaDelayedImm _ => true
  | .callaReg _ => true
  | .callaDelayedReg _ => true
  | .ret => true
  | .retDelayed => true
  | .reti => true
  | .retiDelayed => true
  | .intImm _ => true
  | .intlImm _ _ => true
  | .brk => true
  | .retd => true

/-- The property form of `Instr.wellFormed`, decidable because it is an equation of booleans. -/
abbrev Instr.WellFormed (i : Instr) : Prop := i.wellFormed = true

end Sys2Proof
end

