-- ==== Sys2Proof/Tests/Slice0.lean ====
section
/-!
SUPPORT. The tests: the well-formedness checks, a code of every instruction written out from the spec's encoding,
one step of every instruction with the values of the spec's vectors (95_test_vectors.md,
96_test_vectors_derived.md) or rules, and a witness for every statement that has hypotheses.
-/

namespace Sys2Proof.Machine

/-- What a meaning's next state shows, if it answers one. -/
def after (i : Instr) (s : State) (f : State → List Nat) : Option (List Nat) :=
  match exec i s with
  | .next t => some (f t)
  | .fault _ => none
  | .refused _ => none

/-- What a step's next state shows, if it answers one. -/
def afterStep (s : State) (f : State → List Nat) : Option (List Nat) :=
  match step s with
  | .next t => some (f t)
  | .fault _ => none
  | .refused _ => none

/-- The fault a result is, if it is one. -/
def faultOf (r : Res State) : Option Fault :=
  match r with
  | .next _ => none
  | .fault e => some e
  | .refused _ => none

/-- The test environment of the vectors (spec 95 section 0): RAM below 0x8000, ROM from there to 0xffff. -/
def st (regs : Regs) (psr : Nat) (sp pc : Word) (ext : ExtPending) (mem : Memory) : State :=
  { State.reset with
    regs := regs, psr := psrOfNat psr, sp := sp, pc := pc, ext := ext, mem := mem
    ieEffective := (psrOfNat psr).ie, memMap := [⟨0, 0x8000, .ram⟩, ⟨0x8000, 0x8000, .rom⟩] }

/-- The same state in debug mode. -/
def inDebug (s : State) : State := { s with dcr := { s.dcr with dm := true } }

/-- The remembered target of a delayed branch. -/
def targetOf (t : State) : Nat :=
  match t.delay with
  | some d => d.target.toNat
  | none => 0

/-- The word on top of the stack, the lowest byte first. -/
def topOfStack (t : State) : List Nat :=
  [(t.mem.read t.sp.toNat).toNat, (t.mem.read (t.sp.toNat + 1)).toNat, (t.mem.read (t.sp.toNat + 2)).toNat,
    (t.mem.read (t.sp.toNat + 3)).toNat]

/-- What a delayed call leaves. -/
def seenCall (t : State) : List Nat := [t.pc.toNat, targetOf t, t.sp.toNat] ++ topOfStack t

/-- What an interrupt entry leaves. -/
def seenEntry (t : State) : List Nat := [t.pc.toNat, t.sp.toNat, psrToNat t.psr] ++ topOfStack t

/-! ### Well-formed terms (R162): each check refuses an ill-formed term -/

theorem test_well_formed_refuses :
    Instr.wellFormed (.ldbLoadPostInc .r0 .r0) = false ∧
    Instr.wellFormed (.ldbLoadPostDec .r1 .r1) = false ∧
    Instr.wellFormed (.ldbLoadPreDec .r2 .r2) = false ∧
    Instr.wellFormed (.ldubLoadPostInc .r3 .r3) = false ∧
    Instr.wellFormed (.ldubLoadPostDec .r4 .r4) = false ∧
    Instr.wellFormed (.ldubLoadPreDec .r5 .r5) = false ∧
    Instr.wellFormed (.ldLoadPostInc .r6 .r6) = false ∧
    Instr.wellFormed (.ldLoadPostDec .r7 .r7) = false ∧
    Instr.wellFormed (.ldLoadPreDec .r0 .r0) = false ∧
    Instr.wellFormed (.ldaLoadPostInc .r1 .r1) = false ∧
    Instr.wellFormed (.ldaLoadPostDec .r2 .r2) = false ∧
    Instr.wellFormed (.ldaLoadPreDec .r3 .r3) = false ∧
    Instr.wellFormed (.ldbStorePreDec .r4 .r4) = false ∧
    Instr.wellFormed (.ldStorePreDec .r5 .r5) = false ∧
    Instr.wellFormed (.ldaStorePreDec .r6 .r6) = false := by
  decide

theorem test_well_formed_accepts :
    Instr.wellFormed (.ldbLoadPostInc .r1 .r2) = true ∧ Instr.wellFormed (.ldaStorePreDec .r1 .r2) = true ∧
    Instr.wellFormed (.ldaStorePostInc .r1 .r1) = true := by
  decide

/-! ### A code of every instruction, written out from the encoding rows of the spec -/

theorem test_decode_rm_load :
    decodeWord 0b0010001010000011 = some (.ldbLoadInd .r5 .r3) ∧
    decodeWord 0b0010000100100110 = some (.ldbLoadPostInc .r2 .r6) ∧
    decodeWord 0b0010001111100001 = some (.ldbLoadPostDec .r7 .r1) ∧
    decodeWord 0b0010001001000000 = some (.ldbLoadPreDec .r4 .r0) ∧
    decodeWord 0b0010001010001011 = some (.ldubLoadInd .r5 .r3) ∧
    decodeWord 0b0010000100101110 = some (.ldubLoadPostInc .r2 .r6) ∧
    decodeWord 0b0010001111101001 = some (.ldubLoadPostDec .r7 .r1) ∧
    decodeWord 0b0010001001001000 = some (.ldubLoadPreDec .r4 .r0) ∧
    decodeWord 0b0010001010010011 = some (.ldLoadInd .r5 .r3) ∧
    decodeWord 0b0010000100110110 = some (.ldLoadPostInc .r2 .r6) ∧
    decodeWord 0b0010001111110001 = some (.ldLoadPostDec .r7 .r1) ∧
    decodeWord 0b0010001001010000 = some (.ldLoadPreDec .r4 .r0) ∧
    decodeWord 0b0010001010011011 = some (.ldaLoadInd .r5 .r3) ∧
    decodeWord 0b0010000100111110 = some (.ldaLoadPostInc .r2 .r6) ∧
    decodeWord 0b0010001111111001 = some (.ldaLoadPostDec .r7 .r1) ∧
    decodeWord 0b0010001001011000 = some (.ldaLoadPreDec .r4 .r0) := by
  decide

theorem test_decode_rm_store :
    decodeWord 0b0010011010000011 = some (.ldbStoreInd .r3 .r5) ∧
    decodeWord 0b0010010100100110 = some (.ldbStorePostInc .r6 .r2) ∧
    decodeWord 0b0010011111100001 = some (.ldbStorePostDec .r1 .r7) ∧
    decodeWord 0b0010011001000000 = some (.ldbStorePreDec .r0 .r4) ∧
    decodeWord 0b0010011010010011 = some (.ldStoreInd .r3 .r5) ∧
    decodeWord 0b0010010100110110 = some (.ldStorePostInc .r6 .r2) ∧
    decodeWord 0b0010011111110001 = some (.ldStorePostDec .r1 .r7) ∧
    decodeWord 0b0010011001010000 = some (.ldStorePreDec .r0 .r4) ∧
    decodeWord 0b0010011010011011 = some (.ldaStoreInd .r3 .r5) ∧
    decodeWord 0b0010010100111110 = some (.ldaStorePostInc .r6 .r2) ∧
    decodeWord 0b0010011111111001 = some (.ldaStorePostDec .r1 .r7) ∧
    decodeWord 0b0010011001011000 = some (.ldaStorePreDec .r0 .r4) := by
  decide

theorem test_decode_rr_1 :
    decodeWord 0b0010101010000011 = some (.ldbRR .r5 .r3) ∧
    decodeWord 0b0010100100001110 = some (.ldubRR .r2 .r6) ∧
    decodeWord 0b0010101110010001 = some (.ldRR .r7 .r1) ∧
    decodeWord 0b0010101000011000 = some (.ldaRR .r4 .r0) ∧
    decodeWord 0b0010101010110011 = some (.cvla .r5 .r3) ∧
    decodeWord 0b0010100100111110 = some (.cvab .r2 .r6) ∧
    decodeWord 0b0010101111010001 = some (.cvls .r7 .r1) ∧
    decodeWord 0b0010101001011000 = some (.cvas .r4 .r0) ∧
    decodeWord 0b0010101011111011 = some (.cval .r5 .r3) ∧
    decodeWord 0b0010110101000110 = some (.andRR .r2 .r6) ∧
    decodeWord 0b0010111110000001 = some (.andC .r7 .r1) ∧
    decodeWord 0b0010111000100000 = some (.andNC .r4 .r0) ∧
    decodeWord 0b0010111011001011 = some (.orRR .r5 .r3) ∧
    decodeWord 0b0010110100001110 = some (.orC .r2 .r6) ∧
    decodeWord 0b0010111110101001 = some (.orNC .r7 .r1) ∧
    decodeWord 0b0010111001010000 = some (.xorRR .r4 .r0) ∧
    decodeWord 0b0010111010010011 = some (.xorC .r5 .r3) ∧
    decodeWord 0b0010110100110110 = some (.xorNC .r2 .r6) ∧
    decodeWord 0b0010111111011001 = some (.notRR .r7 .r1) ∧
    decodeWord 0b0010111000011000 = some (.notC .r4 .r0) ∧
    decodeWord 0b0010111010111011 = some (.notNC .r5 .r3) ∧
    decodeWord 0b0010110101100110 = some (.srRR .r2 .r6) ∧
    decodeWord 0b0010111111101001 = some (.saRR .r7 .r1) ∧
    decodeWord 0b0010111001110000 = some (.slRR .r4 .r0) := by
  decide

theorem test_decode_rr_2 :
    decodeWord 0b0010111011111011 = some (.swap .r5 .r3) ∧
    decodeWord 0b0011100101000110 = some (.addRR .r2 .r6) ∧
    decodeWord 0b0011101110000001 = some (.addC .r7 .r1) ∧
    decodeWord 0b0011101000100000 = some (.addNC .r4 .r0) ∧
    decodeWord 0b0011101011001011 = some (.adcRR .r5 .r3) ∧
    decodeWord 0b0011100100001110 = some (.adcC .r2 .r6) ∧
    decodeWord 0b0011101110101001 = some (.adcNC .r7 .r1) ∧
    decodeWord 0b0011101001010000 = some (.subRR .r4 .r0) ∧
    decodeWord 0b0011101010010011 = some (.subC .r5 .r3) ∧
    decodeWord 0b0011100100110110 = some (.subNC .r2 .r6) ∧
    decodeWord 0b0011101111011001 = some (.sbcRR .r7 .r1) ∧
    decodeWord 0b0011101000011000 = some (.sbcC .r4 .r0) ∧
    decodeWord 0b0011101010111011 = some (.sbcNC .r5 .r3) ∧
    decodeWord 0b0011110101000110 = some (.cmpRR .r2 .r6) ∧
    decodeWord 0b0011111110000001 = some (.cmpC .r7 .r1) ∧
    decodeWord 0b0011111000100000 = some (.cmpNC .r4 .r0) ∧
    decodeWord 0b0011111011001011 = some (.cmcRR .r5 .r3) ∧
    decodeWord 0b0011110100001110 = some (.cmcC .r2 .r6) ∧
    decodeWord 0b0011111110101001 = some (.cmcNC .r7 .r1) ∧
    decodeWord 0b0011001001000000 = some (.addaRR .r4 .r0) ∧
    decodeWord 0b0011001010000011 = some (.addaC .r5 .r3) ∧
    decodeWord 0b0011000100100110 = some (.addaNC .r2 .r6) ∧
    decodeWord 0b0011001111010001 = some (.subaRR .r7 .r1) ∧
    decodeWord 0b0011001000010000 = some (.subaC .r4 .r0) := by
  decide

theorem test_decode_rr_3 :
    decodeWord 0b0011001010110011 = some (.subaNC .r5 .r3) ∧
    decodeWord 0b0011010101000110 = some (.cmpaRR .r2 .r6) ∧
    decodeWord 0b0011011110000001 = some (.cmpaC .r7 .r1) ∧
    decodeWord 0b0011011000100000 = some (.cmpaNC .r4 .r0) ∧
    decodeWord 0b0011011010010011 = some (.ldcwRR .r5 .r3) ∧
    decodeWord 0b0011010100011110 = some (.ldcaRR .r2 .r6) ∧
    decodeWord 0b0011011110001001 = some (.ldcfRR .r7 .r1) := by
  decide

theorem test_decode_ri7_1 :
    decodeWord 0b1010001011010101 = some (.andImm .r5 0x55) ∧
    decodeWord 0b1010010100101011 = some (.orImm .r2 0x2b) ∧
    decodeWord 0b1010101111000000 = some (.xorImm .r7 0x40) ∧
    decodeWord 0b1010111000111111 = some (.notImm .r4 0x3f) ∧
    decodeWord 0b1011001011010101 = some (.srImm .r5 0x55) ∧
    decodeWord 0b1011010100101011 = some (.saImm .r2 0x2b) ∧
    decodeWord 0b1011101111000000 = some (.slImm .r7 0x40) ∧
    decodeWord 0b1000001000111111 = some (.addImm .r4 0x3f) ∧
    decodeWord 0b1000011011010101 = some (.adcImm .r5 0x55) ∧
    decodeWord 0b1000100100101011 = some (.subImm .r2 0x2b) ∧
    decodeWord 0b1000111111000000 = some (.sbcImm .r7 0x40) ∧
    decodeWord 0b1001001000111111 = some (.cmpImm .r4 0x3f) ∧
    decodeWord 0b1001011011010101 = some (.cmcImm .r5 0x55) ∧
    decodeWord 0b0110000100101011 = some (.addaImm .r2 0x2b) ∧
    decodeWord 0b0110101111000000 = some (.subaImm .r7 0x40) ∧
    decodeWord 0b0111001000111111 = some (.cmpaImm .r4 0x3f) ∧
    decodeWord 0b0111101011010101 = some (.ldcwImm .r5 0x55) ∧
    decodeWord 0b0111110100101011 = some (.ldcaImm .r2 0x2b) ∧
    decodeWord 0b1101011111000000 = some (.ldcfImm .r7 0x40) ∧
    decodeWord 0b1001101000111111 = some (.ldImm .r4 0x3f) ∧
    decodeWord 0b1001111011010101 = some (.ldaImm .r5 0x55) ∧
    decodeWord 0b1100000100101011 = some (.ldbLoadAbs .r2 0x2b) ∧
    decodeWord 0b1110001111000000 = some (.ldbLoadSpDisp .r7 0x40) ∧
    decodeWord 0b1101001000111111 = some (.ldbStoreAbs 0x3f .r4) := by
  decide

theorem test_decode_ri7_2 :
    decodeWord 0b1111001011010101 = some (.ldbStoreSpDisp 0x55 .r5) ∧
    decodeWord 0b1100010100101011 = some (.ldubLoadAbs .r2 0x2b) ∧
    decodeWord 0b1110011111000000 = some (.ldubLoadSpDisp .r7 0x40) ∧
    decodeWord 0b1100101000111111 = some (.ldLoadAbs .r4 0x3f) ∧
    decodeWord 0b1110101011010101 = some (.ldLoadSpDisp .r5 0x55) ∧
    decodeWord 0b1101100100101011 = some (.ldStoreAbs 0x2b .r2) ∧
    decodeWord 0b1111101111000000 = some (.ldStoreSpDisp 0x40 .r7) ∧
    decodeWord 0b1100111000111111 = some (.ldaLoadAbs .r4 0x3f) ∧
    decodeWord 0b1110111011010101 = some (.ldaLoadSpDisp .r5 0x55) ∧
    decodeWord 0b1101110100101011 = some (.ldaStoreAbs 0x2b .r2) ∧
    decodeWord 0b1111111111000000 = some (.ldaStoreSpDisp 0x40 .r7) := by
  decide

theorem test_decode_sp_r :
    decodeWord 0b0011000000001011 = some (.addaSpRs .r3) ∧
    decodeWord 0b0011000000011110 = some (.subaSpRs .r6) := by
  decide

theorem test_decode_sp_i7 :
    decodeWord 0b0110010001010101 = some (.addaSpImm 0x55) ∧
    decodeWord 0b0110110000101011 = some (.subaSpImm 0x2b) ∧
    decodeWord 0b1011110001000000 = some (.ldaSpImm 0x40) := by
  decide

theorem test_decode_sppc :
    decodeWord 0b0011111010010000 = some (.ldaRdSp .r5) ∧
    decodeWord 0b0011110100110000 = some (.ldaRdPc .r2) ∧
    decodeWord 0b0011111111010000 = some (.ldaSpRs .r7) ∧
    decodeWord 0b0011111000011000 = some (.ldaLoadSp .r4) ∧
    decodeWord 0b0011111010111000 = some (.ldaLoadSpPostInc .r5) ∧
    decodeWord 0b0011110101111000 = some (.ldaLoadSpPostDec .r2) ∧
    decodeWord 0b0011111111011000 = some (.ldaLoadSpPreDec .r7) ∧
    decodeWord 0b0011111000011100 = some (.ldaStoreSp .r4) ∧
    decodeWord 0b0011111010111100 = some (.ldaStoreSpPostInc .r5) ∧
    decodeWord 0b0011110101111100 = some (.ldaStoreSpPostDec .r2) ∧
    decodeWord 0b0011111111011100 = some (.ldaStoreSpPreDec .r7) := by
  decide

theorem test_decode_ext :
    decodeWord 0b0101001101010111 = some (.ext 0x1357) := by
  decide

theorem test_decode_sys :
    decodeWord 0b0000000000000000 = some .nop ∧
    decodeWord 0b0000000000001000 = some .halt ∧
    decodeWord 0b0000000000010000 = some .slp ∧
    decodeWord 0b0000000000100000 = some .ei ∧
    decodeWord 0b0000000001000000 = some .di ∧
    decodeWord 0b0000000100100000 = some .ret ∧
    decodeWord 0b0000000110100000 = some .retDelayed ∧
    decodeWord 0b0000000100101000 = some .reti ∧
    decodeWord 0b0000000110101000 = some .retiDelayed ∧
    decodeWord 0b0000000101100000 = some .brk ∧
    decodeWord 0b0000000101101000 = some .retd := by
  decide

theorem test_decode_br10 :
    decodeWord 0b0001001011010101 = some (.jprImm 0x2d5) ∧
    decodeWord 0b0001010100101011 = some (.jprDelayedImm 0x12b) ∧
    decodeWord 0b0001101011010101 = some (.callImm 0x2d5) ∧
    decodeWord 0b0001110100101011 = some (.callDelayedImm 0x12b) := by
  decide

theorem test_decode_brr :
    decodeWord 0b0000000101000011 = some (.jprReg .r3) ∧
    decodeWord 0b0000000111000110 = some (.jprDelayedReg .r6) ∧
    decodeWord 0b0000000101001001 = some (.jpaReg .r1) ∧
    decodeWord 0b0000000111001000 = some (.jpaDelayedReg .r0) ∧
    decodeWord 0b0000000100000011 = some (.callReg .r3) ∧
    decodeWord 0b0000000110000110 = some (.callDelayedReg .r6) ∧
    decodeWord 0b0000000100001001 = some (.callaReg .r1) ∧
    decodeWord 0b0000000110001000 = some (.callaDelayedReg .r0) := by
  decide

theorem test_decode_br7 :
    decodeWord 0b0000001101010101 = some (.jpaImm 0x55) ∧
    decodeWord 0b0000001110101011 = some (.jpaDelayedImm 0x2b) ∧
    decodeWord 0b0000011001000000 = some (.jrgt 0x40) ∧
    decodeWord 0b0000011010111111 = some (.jrgtDelayed 0x3f) ∧
    decodeWord 0b0000011101010101 = some (.jrge 0x55) ∧
    decodeWord 0b0000011110101011 = some (.jrgeDelayed 0x2b) ∧
    decodeWord 0b0000100001000000 = some (.jrlt 0x40) ∧
    decodeWord 0b0000100010111111 = some (.jrltDelayed 0x3f) ∧
    decodeWord 0b0000100101010101 = some (.jrle 0x55) ∧
    decodeWord 0b0000100110101011 = some (.jrleDelayed 0x2b) ∧
    decodeWord 0b0000101001000000 = some (.jrugt 0x40) ∧
    decodeWord 0b0000101010111111 = some (.jrugtDelayed 0x3f) ∧
    decodeWord 0b0000101101010101 = some (.jruge 0x55) ∧
    decodeWord 0b0000101110101011 = some (.jrugeDelayed 0x2b) ∧
    decodeWord 0b0000110001000000 = some (.jrult 0x40) ∧
    decodeWord 0b0000110010111111 = some (.jrultDelayed 0x3f) ∧
    decodeWord 0b0000110101010101 = some (.jrule 0x55) ∧
    decodeWord 0b0000110110101011 = some (.jruleDelayed 0x2b) ∧
    decodeWord 0b0000111001000000 = some (.jreq 0x40) ∧
    decodeWord 0b0000111010111111 = some (.jreqDelayed 0x3f) ∧
    decodeWord 0b0000111101010101 = some (.jrne 0x55) ∧
    decodeWord 0b0000111110101011 = some (.jrneDelayed 0x2b) ∧
    decodeWord 0b0000010101000000 = some (.callaImm 0x40) ∧
    decodeWord 0b0000010110111111 = some (.callaDelayedImm 0x3f) := by
  decide

theorem test_decode_int :
    decodeWord 0b0111010001010101 = some (.intImm 0x15) ∧
    decodeWord 0b0111011101010111 = some (.intlImm 0x15 0x6) := by
  decide

/-! ### One step of every instruction, the expected values taken from the spec's vectors -/

/-- Vectors 1.1-04, 1.8-40, 1.8-41, 1.8-42, 1.5-19, 1.1-13. -/
theorem test_ldb_load :
  after (.ldbLoadInd .r0 .r1) (st ⟨0, 0x2000, 0, 0, 0, 0, 0, 0⟩ 0x0 0x0 0x8100 (.none) [(0x2000, 0x80), (0x2001, 0x91), (0x2002, 0xa2), (0x2003, 0xb3)])
      (fun t => [(t.reg .r0).toNat, psrToNat t.psr, t.pc.toNat]) = some [0xff80, 0x0, 0x8102] ∧
  after (.ldbLoadPostInc .r0 .r1) (st ⟨0x555555, 0x2004, 0, 0, 0, 0, 0, 0⟩ 0x0 0x0 0x8100 (.none) [(0x2000, 0x80), (0x2001, 0x91), (0x2002, 0xa2), (0x2003, 0xb3), (0x2004, 0x7f), (0x2005, 0x1), (0x2006, 0x2), (0x2007, 0x3)])
      (fun t => [(t.reg .r0).toNat, (t.reg .r1).toNat, psrToNat t.psr, t.pc.toNat]) = some [0x7f, 0x2005, 0x0, 0x8102] ∧
  after (.ldbLoadPostDec .r0 .r1) (st ⟨0x555555, 0x2004, 0, 0, 0, 0, 0, 0⟩ 0x0 0x0 0x8102 (.one 0x8) [(0x2000, 0x80), (0x2001, 0x91), (0x2002, 0xa2), (0x2003, 0xb3), (0x2004, 0x7f), (0x2005, 0x1), (0x2006, 0x2), (0x2007, 0x3)])
      (fun t => [(t.reg .r0).toNat, (t.reg .r1).toNat, psrToNat t.psr, t.pc.toNat]) = some [0x7f, 0x1ffc, 0x0, 0x8104] ∧
  after (.ldbLoadPreDec .r0 .r1) (st ⟨0x555555, 0x2004, 0, 0, 0, 0, 0, 0⟩ 0x0 0x0 0x8104 (.two 0x0 0x4) [(0x2000, 0x80), (0x2001, 0x91), (0x2002, 0xa2), (0x2003, 0xb3), (0x2004, 0x7f), (0x2005, 0x1), (0x2006, 0x2), (0x2007, 0x3)])
      (fun t => [(t.reg .r0).toNat, (t.reg .r1).toNat, psrToNat t.psr, t.pc.toNat]) = some [0xff80, 0x2000, 0x0, 0x8106] ∧
  after (.ldbLoadAbs .r0 0x1) (st ⟨0, 0, 0, 0, 0, 0, 0, 0⟩ 0x0 0x0 0x8102 (.one 0x1) [(0x81, 0xfe)])
      (fun t => [(t.reg .r0).toNat, psrToNat t.psr, t.pc.toNat]) = some [0xfffe, 0x0, 0x8104] ∧
  after (.ldbLoadSpDisp .r0 0x10) (st ⟨0, 0, 0, 0, 0, 0, 0, 0⟩ 0x0 0x1000 0x8100 (.none) [(0x1010, 0x7f)])
      (fun t => [(t.reg .r0).toNat, psrToNat t.psr, t.pc.toNat]) = some [0x7f, 0x0, 0x8102] := by
  decide

/-- Vectors 2.2-16, 1.8-43, 1.8-44, 1.8-45, 1.5-24, 1.5-23. -/
theorem test_ldub_load :
  after (.ldubLoadInd .r0 .r1) (st ⟨0, 0xffff84, 0, 0, 0, 0, 0, 0⟩ 0x0 0x0 0x8100 (.none) [])
      (fun t => [(t.reg .r0).toNat, psrToNat t.psr, t.pc.toNat]) = some [0x10, 0x0, 0x8102] ∧
  after (.ldubLoadPostInc .r0 .r1) (st ⟨0x555555, 0x2004, 0, 0, 0, 0, 0, 0⟩ 0x0 0x0 0x8100 (.none) [(0x2000, 0x80), (0x2001, 0x91), (0x2002, 0xa2), (0x2003, 0xb3), (0x2004, 0x7f), (0x2005, 0x1), (0x2006, 0x2), (0x2007, 0x3)])
      (fun t => [(t.reg .r0).toNat, (t.reg .r1).toNat, psrToNat t.psr, t.pc.toNat]) = some [0x7f, 0x2005, 0x0, 0x8102] ∧
  after (.ldubLoadPostDec .r0 .r1) (st ⟨0x555555, 0x2004, 0, 0, 0, 0, 0, 0⟩ 0x0 0x0 0x8102 (.one 0x8) [(0x2000, 0x80), (0x2001, 0x91), (0x2002, 0xa2), (0x2003, 0xb3), (0x2004, 0x7f), (0x2005, 0x1), (0x2006, 0x2), (0x2007, 0x3)])
      (fun t => [(t.reg .r0).toNat, (t.reg .r1).toNat, psrToNat t.psr, t.pc.toNat]) = some [0x7f, 0x1ffc, 0x0, 0x8104] ∧
  after (.ldubLoadPreDec .r0 .r1) (st ⟨0x555555, 0x2004, 0, 0, 0, 0, 0, 0⟩ 0x0 0x0 0x8104 (.two 0x0 0x4) [(0x2000, 0x80), (0x2001, 0x91), (0x2002, 0xa2), (0x2003, 0xb3), (0x2004, 0x7f), (0x2005, 0x1), (0x2006, 0x2), (0x2007, 0x3)])
      (fun t => [(t.reg .r0).toNat, (t.reg .r1).toNat, psrToNat t.psr, t.pc.toNat]) = some [0x80, 0x2000, 0x0, 0x8106] ∧
  after (.ldubLoadAbs .r0 0x1) (st ⟨0, 0, 0, 0, 0, 0, 0, 0⟩ 0x0 0x0 0x8102 (.one 0x1) [(0x81, 0xfe)])
      (fun t => [(t.reg .r0).toNat, psrToNat t.psr, t.pc.toNat]) = some [0xfe, 0x0, 0x8104] ∧
  after (.ldubLoadSpDisp .r0 0x1) (st ⟨0, 0, 0, 0, 0, 0, 0, 0⟩ 0x0 0x1000 0x8102 (.one 0x1) [(0x1081, 0xfe)])
      (fun t => [(t.reg .r0).toNat, psrToNat t.psr, t.pc.toNat]) = some [0xfe, 0x0, 0x8104] := by
  decide

/-- Vectors 2.2-11, 1.1-10, 2.2-03, 2.2-04, 1.5-03, 2.2-13. -/
theorem test_ld_load :
  after (.ldLoadInd .r0 .r1) (st ⟨0, 0x2003, 0, 0, 0, 0, 0, 0⟩ 0x10 0x1000 0x8100 (.none) [(0x2000, 0x80), (0x2001, 0x91), (0x2002, 0xa2), (0x2003, 0xb3), (0x2004, 0x7f), (0x2005, 0x1), (0x2006, 0x2), (0x2007, 0x3), (0x8005, 0x84)])
      (fun t => [(t.reg .r0).toNat, psrToNat t.psr, t.sp.toNat, t.pc.toNat, (t.mem.read 0xffc).toNat, (t.mem.read 0xffd).toNat, (t.mem.read 0xffe).toNat, (t.mem.read 0xfff).toNat]) = some [0xb3a2, 0x0, 0xffc, 0x8400, 0x0, 0x81, 0x0, 0x10] ∧
  after (.ldLoadPostInc .r0 .r1) (st ⟨0, 0x2000, 0, 0, 0, 0, 0, 0⟩ 0x0 0x0 0x8100 (.none) [(0x2000, 0x80), (0x2001, 0x91), (0x2002, 0xa2), (0x2003, 0xb3)])
      (fun t => [(t.reg .r0).toNat, (t.reg .r1).toNat, psrToNat t.psr, t.pc.toNat]) = some [0x9180, 0x2002, 0x0, 0x8102] ∧
  after (.ldLoadPostDec .r0 .r1) (st ⟨0, 0x2002, 0, 0, 0, 0, 0, 0⟩ 0x0 0x0 0x8100 (.none) [(0x2000, 0x80), (0x2001, 0x91), (0x2002, 0xa2), (0x2003, 0xb3), (0x2004, 0x7f), (0x2005, 0x1), (0x2006, 0x2), (0x2007, 0x3)])
      (fun t => [(t.reg .r0).toNat, (t.reg .r1).toNat, psrToNat t.psr, t.pc.toNat]) = some [0xb3a2, 0x2000, 0x0, 0x8102] ∧
  after (.ldLoadPreDec .r0 .r1) (st ⟨0, 0x2002, 0, 0, 0, 0, 0, 0⟩ 0x0 0x0 0x8100 (.none) [(0x2000, 0x80), (0x2001, 0x91), (0x2002, 0xa2), (0x2003, 0xb3), (0x2004, 0x7f), (0x2005, 0x1), (0x2006, 0x2), (0x2007, 0x3)])
      (fun t => [(t.reg .r0).toNat, (t.reg .r1).toNat, psrToNat t.psr, t.pc.toNat]) = some [0x9180, 0x2000, 0x0, 0x8102] ∧
  after (.ldLoadAbs .r0 0x2) (st ⟨0, 0, 0, 0, 0, 0, 0, 0⟩ 0x0 0x0 0x8102 (.one 0x1) [(0x82, 0x34), (0x83, 0x12)])
      (fun t => [(t.reg .r0).toNat, psrToNat t.psr, t.pc.toNat]) = some [0x1234, 0x0, 0x8104] ∧
  after (.ldLoadSpDisp .r0 0x7f) (st ⟨0, 0, 0, 0, 0, 0, 0, 0⟩ 0x0 0x1f84 0x8100 (.none) [(0x2000, 0x80), (0x2001, 0x91), (0x2002, 0xa2), (0x2003, 0xb3), (0x2004, 0x7f), (0x2005, 0x1), (0x2006, 0x2), (0x2007, 0x3), (0x8005, 0x84)])
      (fun t => [(t.reg .r0).toNat, psrToNat t.psr, t.sp.toNat, t.pc.toNat, (t.mem.read 0x1f80).toNat, (t.mem.read 0x1f81).toNat, (t.mem.read 0x1f82).toNat, (t.mem.read 0x1f83).toNat]) = some [0xb3a2, 0x0, 0x1f80, 0x8400, 0x0, 0x81, 0x0, 0x0] := by
  decide

/-- Vectors 2.3-01, 1.8-49, 1.1-11, 1.8-51, 1.5-11. -/
theorem test_lda_load :
  after (.ldaLoadInd .r0 .r1) (st ⟨0, 0x2002, 0, 0, 0, 0, 0, 0⟩ 0x0 0x1000 0x8100 (.none) [(0x2000, 0x80), (0x2001, 0x91), (0x2002, 0xa2), (0x2003, 0xb3), (0x2004, 0x7f), (0x2005, 0x1), (0x2006, 0x2), (0x2007, 0x3), (0x8005, 0x84)])
      (fun t => [(t.reg .r0).toNat, psrToNat t.psr, t.sp.toNat, t.pc.toNat, (t.mem.read 0xffc).toNat, (t.mem.read 0xffd).toNat, (t.mem.read 0xffe).toNat, (t.mem.read 0xfff).toNat]) = some [0xa29180, 0x0, 0xffc, 0x8400, 0x0, 0x81, 0x0, 0x0] ∧
  after (.ldaLoadPostInc .r0 .r1) (st ⟨0x555555, 0x2004, 0, 0, 0, 0, 0, 0⟩ 0x0 0x0 0x8100 (.none) [(0x2000, 0x80), (0x2001, 0x91), (0x2002, 0xa2), (0x2003, 0xb3), (0x2004, 0x7f), (0x2005, 0x1), (0x2006, 0x2), (0x2007, 0x3)])
      (fun t => [(t.reg .r0).toNat, (t.reg .r1).toNat, psrToNat t.psr, t.pc.toNat]) = some [0x2017f, 0x2008, 0x0, 0x8102] ∧
  after (.ldaLoadPostDec .r0 .r1) (st ⟨0, 0x2000, 0, 0, 0, 0, 0, 0⟩ 0x0 0x0 0x8100 (.none) [(0x2000, 0x80), (0x2001, 0x91), (0x2002, 0xa2), (0x2003, 0xb3)])
      (fun t => [(t.reg .r0).toNat, (t.reg .r1).toNat, psrToNat t.psr, t.pc.toNat]) = some [0xa29180, 0x1ffc, 0x0, 0x8102] ∧
  after (.ldaLoadPreDec .r0 .r1) (st ⟨0x555555, 0x2004, 0, 0, 0, 0, 0, 0⟩ 0x0 0x0 0x8104 (.two 0x0 0x4) [(0x2000, 0x80), (0x2001, 0x91), (0x2002, 0xa2), (0x2003, 0xb3), (0x2004, 0x7f), (0x2005, 0x1), (0x2006, 0x2), (0x2007, 0x3)])
      (fun t => [(t.reg .r0).toNat, (t.reg .r1).toNat, psrToNat t.psr, t.pc.toNat]) = some [0xa29180, 0x2000, 0x0, 0x8106] ∧
  after (.ldaLoadAbs .r0 0x4) (st ⟨0, 0, 0, 0, 0, 0, 0, 0⟩ 0x0 0x0 0x8102 (.one 0x1) [(0x84, 0x56), (0x85, 0x34), (0x86, 0x12), (0x87, 0x99)])
      (fun t => [(t.reg .r0).toNat, psrToNat t.psr, t.pc.toNat]) = some [0x123456, 0x0, 0x8104] := by
  decide

/-- Vectors 1.1-07, 1.8-52, 1.8-53, 1.1-12, 1.5-21, 1.5-20. -/
theorem test_ldb_store :
  after (.ldbStoreInd .r1 .r0) (st ⟨0xabcdef, 0x2000, 0, 0, 0, 0, 0, 0⟩ 0x0 0x0 0x8100 (.none) [(0x2000, 0x11), (0x2001, 0x11), (0x2002, 0x11), (0x2003, 0x11)])
      (fun t => [psrToNat t.psr, t.pc.toNat, (t.mem.read 0x2000).toNat]) = some [0x0, 0x8102, 0xef] ∧
  after (.ldbStorePostInc .r1 .r0) (st ⟨0xabcd85, 0x2004, 0, 0, 0, 0, 0, 0⟩ 0x0 0x0 0x8100 (.none) [(0x2000, 0x80), (0x2001, 0x91), (0x2002, 0xa2), (0x2003, 0xb3), (0x2004, 0x7f), (0x2005, 0x1), (0x2006, 0x2), (0x2007, 0x3)])
      (fun t => [(t.reg .r1).toNat, psrToNat t.psr, t.pc.toNat, (t.mem.read 0x2004).toNat]) = some [0x2005, 0x0, 0x8102, 0x85] ∧
  after (.ldbStorePostDec .r1 .r0) (st ⟨0xabcd85, 0x2004, 0, 0, 0, 0, 0, 0⟩ 0x0 0x0 0x8102 (.one 0x8) [(0x2000, 0x80), (0x2001, 0x91), (0x2002, 0xa2), (0x2003, 0xb3), (0x2004, 0x7f), (0x2005, 0x1), (0x2006, 0x2), (0x2007, 0x3)])
      (fun t => [(t.reg .r1).toNat, psrToNat t.psr, t.pc.toNat, (t.mem.read 0x2004).toNat]) = some [0x1ffc, 0x0, 0x8104, 0x85] ∧
  after (.ldbStorePreDec .r1 .r2) (st ⟨0, 0x2001, 0xa5, 0, 0, 0, 0, 0⟩ 0x0 0x0 0x8100 (.none) [])
      (fun t => [(t.reg .r1).toNat, psrToNat t.psr, t.pc.toNat, (t.mem.read 0x2000).toNat]) = some [0x2000, 0x0, 0x8102, 0xa5] ∧
  after (.ldbStoreAbs 0x1 .r0) (st ⟨0xabcdef, 0, 0, 0, 0, 0, 0, 0⟩ 0x0 0x0 0x8102 (.one 0x1) [])
      (fun t => [psrToNat t.psr, t.pc.toNat, (t.mem.read 0x81).toNat]) = some [0x0, 0x8104, 0xef] ∧
  after (.ldbStoreSpDisp 0x1 .r0) (st ⟨0xabcdef, 0, 0, 0, 0, 0, 0, 0⟩ 0x0 0x1000 0x8102 (.one 0x1) [])
      (fun t => [psrToNat t.psr, t.pc.toNat, (t.mem.read 0x1081).toNat]) = some [0x0, 0x8104, 0xef] := by
  decide

/-- Vectors 1.1-08, 2.2-06, 1.8-56, 1.8-57, 1.5-06, 1.5-05. -/
theorem test_ld_store :
  after (.ldStoreInd .r1 .r0) (st ⟨0xabcdef, 0x2000, 0, 0, 0, 0, 0, 0⟩ 0x0 0x0 0x8100 (.none) [(0x2000, 0x11), (0x2001, 0x11), (0x2002, 0x11), (0x2003, 0x11)])
      (fun t => [psrToNat t.psr, t.pc.toNat, (t.mem.read 0x2000).toNat, (t.mem.read 0x2001).toNat]) = some [0x0, 0x8102, 0xef, 0xcd] ∧
  after (.ldStorePostInc .r1 .r1) (st ⟨0, 0x2000, 0, 0, 0, 0, 0, 0⟩ 0x0 0x0 0x8100 (.none) [])
      (fun t => [(t.reg .r1).toNat, psrToNat t.psr, t.pc.toNat, (t.mem.read 0x2000).toNat, (t.mem.read 0x2001).toNat]) = some [0x2002, 0x0, 0x8102, 0x0, 0x20] ∧
  after (.ldStorePostDec .r1 .r0) (st ⟨0xabcd85, 0x2004, 0, 0, 0, 0, 0, 0⟩ 0x0 0x0 0x8102 (.one 0x8) [(0x2000, 0x80), (0x2001, 0x91), (0x2002, 0xa2), (0x2003, 0xb3), (0x2004, 0x7f), (0x2005, 0x1), (0x2006, 0x2), (0x2007, 0x3)])
      (fun t => [(t.reg .r1).toNat, psrToNat t.psr, t.pc.toNat, (t.mem.read 0x2004).toNat, (t.mem.read 0x2005).toNat]) = some [0x1ffc, 0x0, 0x8104, 0x85, 0xcd] ∧
  after (.ldStorePreDec .r1 .r0) (st ⟨0xabcd85, 0x2004, 0, 0, 0, 0, 0, 0⟩ 0x0 0x0 0x8104 (.two 0x0 0x4) [(0x2000, 0x80), (0x2001, 0x91), (0x2002, 0xa2), (0x2003, 0xb3), (0x2004, 0x7f), (0x2005, 0x1), (0x2006, 0x2), (0x2007, 0x3)])
      (fun t => [(t.reg .r1).toNat, psrToNat t.psr, t.pc.toNat, (t.mem.read 0x2000).toNat, (t.mem.read 0x2001).toNat]) = some [0x2000, 0x0, 0x8106, 0x85, 0xcd] ∧
  after (.ldStoreAbs 0x2 .r0) (st ⟨0xabcdef, 0, 0, 0, 0, 0, 0, 0⟩ 0x0 0x0 0x8102 (.one 0x1) [])
      (fun t => [psrToNat t.psr, t.pc.toNat, (t.mem.read 0x82).toNat, (t.mem.read 0x83).toNat]) = some [0x0, 0x8104, 0xef, 0xcd] ∧
  after (.ldStoreSpDisp 0x2 .r0) (st ⟨0xabcdef, 0, 0, 0, 0, 0, 0, 0⟩ 0x0 0x1000 0x8102 (.one 0x1) [])
      (fun t => [psrToNat t.psr, t.pc.toNat, (t.mem.read 0x1082).toNat, (t.mem.read 0x1083).toNat]) = some [0x0, 0x8104, 0xef, 0xcd] := by
  decide

/-- Vectors 1.1-09, 2.3-15, 1.8-59, 1.8-60, 1.5-16. -/
theorem test_lda_store :
  after (.ldaStoreInd .r1 .r0) (st ⟨0xabcdef, 0x2000, 0, 0, 0, 0, 0, 0⟩ 0x0 0x0 0x8100 (.none) [(0x2000, 0x11), (0x2001, 0x11), (0x2002, 0x11), (0x2003, 0x11)])
      (fun t => [psrToNat t.psr, t.pc.toNat, (t.mem.read 0x2000).toNat, (t.mem.read 0x2001).toNat, (t.mem.read 0x2002).toNat, (t.mem.read 0x2003).toNat]) = some [0x0, 0x8102, 0xef, 0xcd, 0xab, 0x0] ∧
  after (.ldaStorePostInc .r1 .r1) (st ⟨0, 0x2000, 0, 0, 0, 0, 0, 0⟩ 0x0 0x0 0x8100 (.none) [])
      (fun t => [(t.reg .r1).toNat, psrToNat t.psr, t.pc.toNat, (t.mem.read 0x2000).toNat, (t.mem.read 0x2001).toNat, (t.mem.read 0x2002).toNat, (t.mem.read 0x2003).toNat]) = some [0x2004, 0x0, 0x8102, 0x0, 0x20, 0x0, 0x0] ∧
  after (.ldaStorePostDec .r1 .r0) (st ⟨0xabcd85, 0x2004, 0, 0, 0, 0, 0, 0⟩ 0x0 0x0 0x8102 (.one 0x8) [(0x2000, 0x80), (0x2001, 0x91), (0x2002, 0xa2), (0x2003, 0xb3), (0x2004, 0x7f), (0x2005, 0x1), (0x2006, 0x2), (0x2007, 0x3)])
      (fun t => [(t.reg .r1).toNat, psrToNat t.psr, t.pc.toNat, (t.mem.read 0x2004).toNat, (t.mem.read 0x2005).toNat, (t.mem.read 0x2006).toNat, (t.mem.read 0x2007).toNat]) = some [0x1ffc, 0x0, 0x8104, 0x85, 0xcd, 0xab, 0x0] ∧
  after (.ldaStorePreDec .r1 .r0) (st ⟨0xabcd85, 0x2004, 0, 0, 0, 0, 0, 0⟩ 0x0 0x0 0x8104 (.two 0x0 0x4) [(0x2000, 0x80), (0x2001, 0x91), (0x2002, 0xa2), (0x2003, 0xb3), (0x2004, 0x7f), (0x2005, 0x1), (0x2006, 0x2), (0x2007, 0x3)])
      (fun t => [(t.reg .r1).toNat, psrToNat t.psr, t.pc.toNat, (t.mem.read 0x2000).toNat, (t.mem.read 0x2001).toNat, (t.mem.read 0x2002).toNat, (t.mem.read 0x2003).toNat]) = some [0x2000, 0x0, 0x8106, 0x85, 0xcd, 0xab, 0x0] ∧
  after (.ldaStoreAbs 0x4 .r0) (st ⟨0x123456, 0, 0, 0, 0, 0, 0, 0⟩ 0x0 0x0 0x8102 (.one 0x1) [(0x84, 0xff), (0x85, 0xff), (0x86, 0xff), (0x87, 0xff)])
      (fun t => [psrToNat t.psr, t.pc.toNat, (t.mem.read 0x84).toNat, (t.mem.read 0x85).toNat, (t.mem.read 0x86).toNat, (t.mem.read 0x87).toNat]) = some [0x0, 0x8104, 0x56, 0x34, 0x12, 0x0] := by
  decide

/-- Vectors 1.5-17. -/
theorem test_ldb_move :
  after (.ldbRR .r0 .r1) (st ⟨0, 0x123480, 0, 0, 0, 0, 0, 0⟩ 0x0 0x0 0x8100 (.none) [])
      (fun t => [(t.reg .r0).toNat, psrToNat t.psr, t.pc.toNat]) = some [0xff80, 0x0, 0x8102] := by
  decide

/-- Vectors 1.5-22. -/
theorem test_ldub_move :
  after (.ldubRR .r0 .r1) (st ⟨0xffffff, 0x123480, 0, 0, 0, 0, 0, 0⟩ 0x0 0x0 0x8100 (.none) [])
      (fun t => [(t.reg .r0).toNat, psrToNat t.psr, t.pc.toNat]) = some [0x80, 0x0, 0x8102] := by
  decide

/-- Vectors 1.5-01, 1.1-03. -/
theorem test_ld_move :
  after (.ldRR .r0 .r1) (st ⟨0xffffff, 0xabcdef, 0, 0, 0, 0, 0, 0⟩ 0x0 0x0 0x8100 (.none) [])
      (fun t => [(t.reg .r0).toNat, psrToNat t.psr, t.pc.toNat]) = some [0xcdef, 0x0, 0x8102] ∧
  after (.ldImm .r0 0x70) (st ⟨0xabcdef, 0, 0, 0, 0, 0, 0, 0⟩ 0x0 0x0 0x8100 (.none) [])
      (fun t => [(t.reg .r0).toNat, psrToNat t.psr, t.pc.toNat]) = some [0xfff0, 0x0, 0x8102] := by
  decide

/-- Vectors 1.5-08, 1.5-12. -/
theorem test_lda_move :
  after (.ldaRR .r0 .r1) (st ⟨0, 0xabcdef, 0, 0, 0, 0, 0, 0⟩ 0x0 0x0 0x8100 (.none) [])
      (fun t => [(t.reg .r0).toNat, psrToNat t.psr, t.pc.toNat]) = some [0xabcdef, 0x0, 0x8102] ∧
  after (.ldaImm .r0 0x3f) (st ⟨0xffffff, 0, 0, 0, 0, 0, 0, 0⟩ 0x0 0x0 0x8100 (.none) [])
      (fun t => [(t.reg .r0).toNat, psrToNat t.psr, t.pc.toNat]) = some [0x3f, 0x0, 0x8102] := by
  decide

/-- Vectors 1.4-05, 1.4-02, 1.4-06, 2.9-06, 1.4-03. -/
theorem test_cv :
  after (.cvla .r0 .r1) (st ⟨0xffffff, 0x800000, 0, 0, 0, 0, 0, 0⟩ 0x0 0x0 0x8100 (.none) [])
      (fun t => [(t.reg .r0).toNat, psrToNat t.psr, t.pc.toNat]) = some [0x80, 0x0, 0x8102] ∧
  after (.cvab .r0 .r1) (st ⟨0, 0x80, 0, 0, 0, 0, 0, 0⟩ 0x0 0x0 0x8100 (.none) [])
      (fun t => [(t.reg .r0).toNat, psrToNat t.psr, t.pc.toNat]) = some [0xffff80, 0x0, 0x8102] ∧
  after (.cvls .r0 .r1) (st ⟨0, 0x8000, 0, 0, 0, 0, 0, 0⟩ 0x0 0x0 0x8100 (.none) [])
      (fun t => [(t.reg .r0).toNat, psrToNat t.psr, t.pc.toNat]) = some [0xffff, 0x0, 0x8102] ∧
  after (.cvas .r0 .r0) (st ⟨0xffff, 0, 0, 0, 0, 0, 0, 0⟩ 0xf 0x0 0x8100 (.none) [])
      (fun t => [(t.reg .r0).toNat, psrToNat t.psr, t.pc.toNat]) = some [0xffffff, 0xf, 0x8102] ∧
  after (.cval .r0 .r1) (st ⟨0, 0xff, 0, 0, 0, 0, 0, 0⟩ 0x0 0x0 0x8100 (.none) [])
      (fun t => [(t.reg .r0).toNat, psrToNat t.psr, t.pc.toNat]) = some [0xff0000, 0x0, 0x8102] := by
  decide

/-- Vectors 1.3-01, 2.4-01, 2.4-09, 1.3-03. -/
theorem test_and :
  after (.andRR .r0 .r0) (st ⟨0xab8001, 0, 0, 0, 0, 0, 0, 0⟩ 0x4 0x0 0x8100 (.none) [])
      (fun t => [(t.reg .r0).toNat, psrToNat t.psr, t.pc.toNat]) = some [0x8001, 0x1, 0x8102] ∧
  after (.andC .r0 .r1) (st ⟨0xff0f, 0xff, 0, 0, 0, 0, 0, 0⟩ 0xc 0x0 0x8100 (.none) [])
      (fun t => [(t.reg .r0).toNat, psrToNat t.psr, t.pc.toNat]) = some [0xf, 0x8, 0x8102] ∧
  after (.andNC .r0 .r1) (st ⟨0xff0f, 0xf0, 0, 0, 0, 0, 0, 0⟩ 0x0 0x0 0x8100 (.none) [])
      (fun t => [(t.reg .r0).toNat, psrToNat t.psr, t.pc.toNat]) = some [0x0, 0x2, 0x8102] ∧
  after (.andImm .r0 0x7e) (st ⟨0xffff, 0, 0, 0, 0, 0, 0, 0⟩ 0x0 0x0 0x8100 (.none) [])
      (fun t => [(t.reg .r0).toNat, psrToNat t.psr, t.pc.toNat]) = some [0xfffe, 0x1, 0x8102] := by
  decide

/-- Vectors 1.3-05, 1.8-31, 2.4-04, 1.3-07. -/
theorem test_or :
  after (.orRR .r0 .r0) (st ⟨0, 0, 0, 0, 0, 0, 0, 0⟩ 0xc 0x0 0x8100 (.none) [])
      (fun t => [psrToNat t.psr, t.pc.toNat]) = some [0xa, 0x8102] ∧
  after (.orC .r0 .r1) (st ⟨0xf0f0, 0x3cc3, 0, 0, 0, 0, 0, 0⟩ 0x8 0x0 0x8100 (.none) [])
      (fun t => [(t.reg .r0).toNat, psrToNat t.psr, t.pc.toNat]) = some [0xfcf3, 0x9, 0x8102] ∧
  after (.orNC .r0 .r1) (st ⟨0x1, 0x2, 0, 0, 0, 0, 0, 0⟩ 0x8 0x0 0x8100 (.none) [])
      (fun t => [psrToNat t.psr, t.pc.toNat]) = some [0x8, 0x8102] ∧
  after (.orImm .r0 0x7e) (st ⟨0x1, 0, 0, 0, 0, 0, 0, 0⟩ 0x0 0x0 0x8100 (.none) [])
      (fun t => [(t.reg .r0).toNat, psrToNat t.psr, t.pc.toNat]) = some [0xffff, 0x1, 0x8102] := by
  decide

/-- Vectors 1.3-09, 2.4-10, 1.8-33, 1.3-11. -/
theorem test_xor :
  after (.xorRR .r0 .r0) (st ⟨0xab1234, 0, 0, 0, 0, 0, 0, 0⟩ 0x0 0x0 0x8100 (.none) [])
      (fun t => [(t.reg .r0).toNat, psrToNat t.psr, t.pc.toNat]) = some [0x0, 0x2, 0x8102] ∧
  after (.xorC .r0 .r1) (st ⟨0xff, 0xf0f, 0, 0, 0, 0, 0, 0⟩ 0x8 0x0 0x8100 (.none) [])
      (fun t => [(t.reg .r0).toNat, psrToNat t.psr, t.pc.toNat]) = some [0xff0, 0x8, 0x8102] ∧
  after (.xorNC .r0 .r1) (st ⟨0xf0f0, 0x3cc3, 0, 0, 0, 0, 0, 0⟩ 0x0 0x0 0x8100 (.none) [])
      (fun t => [(t.reg .r0).toNat, psrToNat t.psr, t.pc.toNat]) = some [0xcc33, 0x1, 0x8102] ∧
  after (.xorImm .r0 0x7e) (st ⟨0xffff, 0, 0, 0, 0, 0, 0, 0⟩ 0x0 0x0 0x8100 (.none) [])
      (fun t => [(t.reg .r0).toNat, psrToNat t.psr, t.pc.toNat]) = some [0x1, 0x0, 0x8102] := by
  decide

/-- Vectors 1.3-13, 2.4-05, 2.4-11, 1.3-14. -/
theorem test_not :
  after (.notRR .r0 .r1) (st ⟨0, 0x555555, 0, 0, 0, 0, 0, 0⟩ 0x0 0x0 0x8100 (.none) [])
      (fun t => [(t.reg .r0).toNat, psrToNat t.psr, t.pc.toNat]) = some [0xaaaa, 0x1, 0x8102] ∧
  after (.notC .r0 .r1) (st ⟨0, 0xffff, 0, 0, 0, 0, 0, 0⟩ 0x8 0x0 0x8100 (.none) [])
      (fun t => [(t.reg .r0).toNat, psrToNat t.psr, t.pc.toNat]) = some [0x0, 0xa, 0x8102] ∧
  after (.notNC .r0 .r1) (st ⟨0, 0xab0000, 0, 0, 0, 0, 0, 0⟩ 0x0 0x0 0x8100 (.none) [])
      (fun t => [(t.reg .r0).toNat, psrToNat t.psr, t.pc.toNat]) = some [0xffff, 0x1, 0x8102] ∧
  after (.notImm .r0 0x3f) (st ⟨0, 0, 0, 0, 0, 0, 0, 0⟩ 0x0 0x0 0x8100 (.none) [])
      (fun t => [(t.reg .r0).toNat, psrToNat t.psr, t.pc.toNat]) = some [0xffc0, 0x1, 0x8102] := by
  decide

/-- Vectors 2.6-25, 1.1-16. -/
theorem test_sr :
  after (.srRR .r0 .r1) (st ⟨0xc0a5, 0x10001, 0, 0, 0, 0, 0, 0⟩ 0x0 0x0 0x8100 (.none) [])
      (fun t => [(t.reg .r0).toNat, psrToNat t.psr, t.pc.toNat]) = some [0x6052, 0x8, 0x8102] ∧
  after (.srImm .r0 0x1) (st ⟨0xff8003, 0, 0, 0, 0, 0, 0, 0⟩ 0x0 0x0 0x8100 (.none) [])
      (fun t => [(t.reg .r0).toNat, psrToNat t.psr, t.pc.toNat]) = some [0x4001, 0x8, 0x8102] := by
  decide

/-- Vectors 2.6-27, 1.1-18. -/
theorem test_sa :
  after (.saRR .r0 .r0) (st ⟨0x8003, 0, 0, 0, 0, 0, 0, 0⟩ 0x0 0x0 0x8100 (.none) [])
      (fun t => [(t.reg .r0).toNat, psrToNat t.psr, t.pc.toNat]) = some [0xff80, 0x1, 0x8102] ∧
  after (.saImm .r0 0xf) (st ⟨0x8480, 0, 0, 0, 0, 0, 0, 0⟩ 0x0 0x0 0x8100 (.none) [])
      (fun t => [(t.reg .r0).toNat, psrToNat t.psr, t.pc.toNat]) = some [0xff84, 0x9, 0x8102] := by
  decide

/-- Vectors 2.6-26, 1.1-17. -/
theorem test_sl :
  after (.slRR .r0 .r1) (st ⟨0xc0a5, 0x100, 0, 0, 0, 0, 0, 0⟩ 0x0 0x0 0x8100 (.none) [])
      (fun t => [(t.reg .r0).toNat, psrToNat t.psr, t.pc.toNat]) = some [0xa500, 0x1, 0x8102] ∧
  after (.slImm .r0 0x7) (st ⟨0x1234, 0, 0, 0, 0, 0, 0, 0⟩ 0x0 0x0 0x8100 (.none) [])
      (fun t => [(t.reg .r0).toNat, psrToNat t.psr, t.pc.toNat]) = some [0x2340, 0x8, 0x8102] := by
  decide

/-- Vectors 2.6-29. -/
theorem test_swap :
  after (.swap .r0 .r0) (st ⟨0xab00ff, 0, 0, 0, 0, 0, 0, 0⟩ 0xf 0x0 0x8100 (.none) [])
      (fun t => [(t.reg .r0).toNat, psrToNat t.psr, t.pc.toNat]) = some [0xff00, 0xf, 0x8102] := by
  decide

/-- Vectors 1.2-05, 2.5-11, 2.5-14, 2.5-04. -/
theorem test_add :
  after (.addRR .r0 .r0) (st ⟨0x4000, 0, 0, 0, 0, 0, 0, 0⟩ 0x0 0x0 0x8100 (.none) [])
      (fun t => [(t.reg .r0).toNat, psrToNat t.psr, t.pc.toNat]) = some [0x8000, 0x5, 0x8102] ∧
  after (.addC .r0 .r1) (st ⟨0x1, 0x1, 0, 0, 0, 0, 0, 0⟩ 0x8 0x0 0x8100 (.none) [])
      (fun t => [(t.reg .r0).toNat, psrToNat t.psr, t.pc.toNat]) = some [0x2, 0x8, 0x8102] ∧
  after (.addNC .r0 .r1) (st ⟨0x1, 0x1, 0, 0, 0, 0, 0, 0⟩ 0x8 0x0 0x8100 (.none) [])
      (fun t => [psrToNat t.psr, t.pc.toNat]) = some [0x8, 0x8102] ∧
  after (.addImm .r0 0x7f) (st ⟨0xff81, 0, 0, 0, 0, 0, 0, 0⟩ 0x0 0x0 0x8100 (.none) [])
      (fun t => [(t.reg .r0).toNat, psrToNat t.psr, t.pc.toNat]) = some [0x0, 0xa, 0x8102] := by
  decide

/-- Vectors 2.5-07, 2.5-25, 2.5-26, 1.2-03. -/
theorem test_adc :
  after (.adcRR .r0 .r1) (st ⟨0xffff, 0, 0, 0, 0, 0, 0, 0⟩ 0x8 0x0 0x8100 (.none) [])
      (fun t => [(t.reg .r0).toNat, psrToNat t.psr, t.pc.toNat]) = some [0x0, 0xa, 0x8102] ∧
  after (.adcC .r0 .r1) (st ⟨0xffff, 0, 0, 0, 0, 0, 0, 0⟩ 0x8 0x0 0x8100 (.none) [])
      (fun t => [(t.reg .r0).toNat, psrToNat t.psr, t.pc.toNat]) = some [0x0, 0xa, 0x8102] ∧
  after (.adcNC .r0 .r1) (st ⟨0x1, 0x1, 0, 0, 0, 0, 0, 0⟩ 0x0 0x0 0x8100 (.none) [])
      (fun t => [(t.reg .r0).toNat, psrToNat t.psr, t.pc.toNat]) = some [0x2, 0x0, 0x8102] ∧
  after (.adcImm .r0 0x7f) (st ⟨0x1, 0, 0, 0, 0, 0, 0, 0⟩ 0x8 0x0 0x8100 (.none) [])
      (fun t => [(t.reg .r0).toNat, psrToNat t.psr, t.pc.toNat]) = some [0x81, 0x0, 0x8102] := by
  decide

/-- Vectors 1.2-33, 1.8-36, 2.5-13, 1.2-35. -/
theorem test_sub :
  after (.subRR .r0 .r0) (st ⟨0xab1234, 0, 0, 0, 0, 0, 0, 0⟩ 0x0 0x0 0x8100 (.none) [])
      (fun t => [(t.reg .r0).toNat, psrToNat t.psr, t.pc.toNat]) = some [0x0, 0x2, 0x8102] ∧
  after (.subC .r0 .r1) (st ⟨0x5, 0x7, 0, 0, 0, 0, 0, 0⟩ 0x8 0x0 0x8100 (.none) [])
      (fun t => [(t.reg .r0).toNat, psrToNat t.psr, t.pc.toNat]) = some [0xfffe, 0x9, 0x8102] ∧
  after (.subNC .r0 .r1) (st ⟨0, 0x1, 0, 0, 0, 0, 0, 0⟩ 0x0 0x0 0x8100 (.none) [])
      (fun t => [(t.reg .r0).toNat, psrToNat t.psr, t.pc.toNat]) = some [0xffff, 0x1, 0x8102] ∧
  after (.subImm .r0 0x3f) (st ⟨0x40, 0, 0, 0, 0, 0, 0, 0⟩ 0x0 0x0 0x8100 (.none) [])
      (fun t => [(t.reg .r0).toNat, psrToNat t.psr, t.pc.toNat]) = some [0x1, 0x0, 0x8102] := by
  decide

/-- Vectors 1.2-29, 2.5-27, 2.5-28, 1.2-31. -/
theorem test_sbc :
  after (.sbcRR .r0 .r1) (st ⟨0x5, 0x5, 0, 0, 0, 0, 0, 0⟩ 0x8 0x0 0x8100 (.none) [])
      (fun t => [(t.reg .r0).toNat, psrToNat t.psr, t.pc.toNat]) = some [0xffff, 0x9, 0x8102] ∧
  after (.sbcC .r0 .r1) (st ⟨0x5, 0x1, 0, 0, 0, 0, 0, 0⟩ 0x8 0x0 0x8100 (.none) [])
      (fun t => [(t.reg .r0).toNat, psrToNat t.psr, t.pc.toNat]) = some [0x3, 0x8, 0x8102] ∧
  after (.sbcNC .r0 .r1) (st ⟨0, 0x1, 0, 0, 0, 0, 0, 0⟩ 0x0 0x0 0x8100 (.none) [])
      (fun t => [(t.reg .r0).toNat, psrToNat t.psr, t.pc.toNat]) = some [0xffff, 0x1, 0x8102] ∧
  after (.sbcImm .r0 0x7f) (st ⟨0x80, 0, 0, 0, 0, 0, 0, 0⟩ 0x8 0x0 0x8100 (.none) [])
      (fun t => [(t.reg .r0).toNat, psrToNat t.psr, t.pc.toNat]) = some [0x0, 0x2, 0x8102] := by
  decide

/-- Vectors 2.5-16, 1.8-38, 1.2-23. -/
theorem test_cmp :
  after (.cmpRR .r0 .r1) (st ⟨0xab0001, 0x2, 0, 0, 0, 0, 0, 0⟩ 0x0 0x0 0x8100 (.none) [])
      (fun t => [(t.reg .r0).toNat, psrToNat t.psr, t.pc.toNat]) = some [0xab0001, 0x9, 0x8102] ∧
  after (.cmpNC .r0 .r1) (st ⟨0x5, 0x7, 0, 0, 0, 0, 0, 0⟩ 0x0 0x0 0x8100 (.none) [])
      (fun t => [psrToNat t.psr, t.pc.toNat]) = some [0x1, 0x8102] ∧
  after (.cmpImm .r0 0x3f) (st ⟨0x3e, 0, 0, 0, 0, 0, 0, 0⟩ 0x0 0x0 0x8100 (.none) [])
      (fun t => [psrToNat t.psr, t.pc.toNat]) = some [0x9, 0x8102] := by
  decide

/-- Vectors 1.2-17, 2.5-17, 2.5-29, 1.2-19. -/
theorem test_cmc :
  after (.cmcRR .r0 .r1) (st ⟨0x5, 0x4, 0, 0, 0, 0, 0, 0⟩ 0x8 0x0 0x8100 (.none) [])
      (fun t => [psrToNat t.psr, t.pc.toNat]) = some [0x2, 0x8102] ∧
  after (.cmcC .r0 .r1) (st ⟨0x2, 0x1, 0, 0, 0, 0, 0, 0⟩ 0x8 0x0 0x8100 (.none) [])
      (fun t => [psrToNat t.psr, t.pc.toNat]) = some [0xa, 0x8102] ∧
  after (.cmcNC .r0 .r1) (st ⟨0x1, 0x1, 0, 0, 0, 0, 0, 0⟩ 0x0 0x0 0x8100 (.none) [])
      (fun t => [psrToNat t.psr, t.pc.toNat]) = some [0x2, 0x8102] ∧
  after (.cmcImm .r0 0x7f) (st ⟨0xffff, 0, 0, 0, 0, 0, 0, 0⟩ 0x0 0x0 0x8100 (.none) [])
      (fun t => [psrToNat t.psr, t.pc.toNat]) = some [0x2, 0x8102] := by
  decide

/-- Vectors 2.5-18, 2.5-19, 2.5-30, 1.2-11. -/
theorem test_adda :
  after (.addaRR .r0 .r1) (st ⟨0xffffff, 0x2, 0, 0, 0, 0, 0, 0⟩ 0x0 0x0 0x8100 (.none) [])
      (fun t => [(t.reg .r0).toNat, psrToNat t.psr, t.pc.toNat]) = some [0x1, 0x0, 0x8102] ∧
  after (.addaC .r0 .r1) (st ⟨0x1, 0x2, 0, 0, 0, 0, 0, 0⟩ 0x0 0x0 0x8100 (.none) [])
      (fun t => [(t.reg .r0).toNat, psrToNat t.psr, t.pc.toNat]) = some [0x1, 0x0, 0x8102] ∧
  after (.addaNC .r0 .r1) (st ⟨0xffffff, 0x1, 0, 0, 0, 0, 0, 0⟩ 0x0 0x0 0x8100 (.none) [])
      (fun t => [(t.reg .r0).toNat, psrToNat t.psr, t.pc.toNat]) = some [0x0, 0x0, 0x8102] ∧
  after (.addaImm .r0 0x7f) (st ⟨0xff81, 0, 0, 0, 0, 0, 0, 0⟩ 0x0 0x0 0x8100 (.none) [])
      (fun t => [(t.reg .r0).toNat, psrToNat t.psr, t.pc.toNat]) = some [0x10000, 0x0, 0x8102] := by
  decide

/-- Vectors 1.2-13, 1.2-15. -/
theorem test_addaSp :
  after (.addaSpRs .r0) (st ⟨0x10, 0, 0, 0, 0, 0, 0, 0⟩ 0x0 0x1000 0x8100 (.none) [])
      (fun t => [psrToNat t.psr, t.sp.toNat, t.pc.toNat]) = some [0x0, 0x1010, 0x8102] ∧
  after (.addaSpImm 0x7c) (st ⟨0, 0, 0, 0, 0, 0, 0, 0⟩ 0x0 0x1000 0x8100 (.none) [])
      (fun t => [psrToNat t.psr, t.sp.toNat, t.pc.toNat]) = some [0x0, 0x107c, 0x8102] := by
  decide

/-- Vectors 1.2-37, 2.5-31, 2.5-32, 1.2-39. -/
theorem test_suba :
  after (.subaRR .r0 .r0) (st ⟨0xabcdef, 0, 0, 0, 0, 0, 0, 0⟩ 0x1 0x0 0x8100 (.none) [])
      (fun t => [(t.reg .r0).toNat, psrToNat t.psr, t.pc.toNat]) = some [0x0, 0x1, 0x8102] ∧
  after (.subaC .r0 .r1) (st ⟨0, 0x1, 0, 0, 0, 0, 0, 0⟩ 0x8 0x0 0x8100 (.none) [])
      (fun t => [(t.reg .r0).toNat, psrToNat t.psr, t.pc.toNat]) = some [0xffffff, 0x8, 0x8102] ∧
  after (.subaNC .r0 .r1) (st ⟨0x5, 0x1, 0, 0, 0, 0, 0, 0⟩ 0x8 0x0 0x8100 (.none) [])
      (fun t => [(t.reg .r0).toNat, psrToNat t.psr, t.pc.toNat]) = some [0x5, 0x8, 0x8102] ∧
  after (.subaImm .r0 0x7f) (st ⟨0x10000, 0, 0, 0, 0, 0, 0, 0⟩ 0x0 0x0 0x8100 (.none) [])
      (fun t => [(t.reg .r0).toNat, psrToNat t.psr, t.pc.toNat]) = some [0xff81, 0x0, 0x8102] := by
  decide

/-- Vectors 1.2-41, 1.2-43. -/
theorem test_subaSp :
  after (.subaSpRs .r0) (st ⟨0x10, 0, 0, 0, 0, 0, 0, 0⟩ 0x0 0x1000 0x8100 (.none) [])
      (fun t => [psrToNat t.psr, t.sp.toNat, t.pc.toNat]) = some [0x0, 0xff0, 0x8102] ∧
  after (.subaSpImm 0x7c) (st ⟨0, 0, 0, 0, 0, 0, 0, 0⟩ 0x0 0x1000 0x8100 (.none) [])
      (fun t => [psrToNat t.psr, t.sp.toNat, t.pc.toNat]) = some [0x0, 0xf84, 0x8102] := by
  decide

/-- Vectors 1.2-25, 2.5-24, 1.2-27. -/
theorem test_cmpa :
  after (.cmpaRR .r0 .r1) (st ⟨0x10000, 0x20000, 0, 0, 0, 0, 0, 0⟩ 0x5 0x0 0x8100 (.none) [])
      (fun t => [psrToNat t.psr, t.pc.toNat]) = some [0xd, 0x8102] ∧
  after (.cmpaNC .r0 .r1) (st ⟨0x1, 0x2, 0, 0, 0, 0, 0, 0⟩ 0x0 0x0 0x8100 (.none) [])
      (fun t => [psrToNat t.psr, t.pc.toNat]) = some [0x0, 0x8102] ∧
  after (.cmpaImm .r0 0x7f) (st ⟨0x7f, 0, 0, 0, 0, 0, 0, 0⟩ 0x0 0x0 0x8100 (.none) [])
      (fun t => [psrToNat t.psr, t.pc.toNat]) = some [0x2, 0x8102] := by
  decide

/-- Vectors 1.5-14, 1.5-09, 1.5-13. -/
theorem test_lda_move_sp :
  after (.ldaSpImm 0x0) (st ⟨0, 0, 0, 0, 0, 0, 0, 0⟩ 0x0 0x0 0x8102 (.one 0x8) [])
      (fun t => [psrToNat t.psr, t.sp.toNat, t.pc.toNat]) = some [0x0, 0x400, 0x8104] ∧
  after (.ldaRdSp .r0) (st ⟨0, 0, 0, 0, 0, 0, 0, 0⟩ 0x0 0x1000 0x8100 (.none) [])
      (fun t => [(t.reg .r0).toNat, psrToNat t.psr, t.pc.toNat]) = some [0x1000, 0x0, 0x8102] ∧
  after (.ldaSpRs .r0) (st ⟨0x1003, 0, 0, 0, 0, 0, 0, 0⟩ 0x0 0x0 0x8100 (.none) [])
      (fun t => [psrToNat t.psr, t.sp.toNat, t.pc.toNat]) = some [0x0, 0x1000, 0x8102] := by
  decide

/-- Vectors 2.3-07, 1.1-02, 2.3-02, 2.3-03, 1.5-10. -/
theorem test_lda_load_sp :
  after (.ldaLoadSp .r0) (st ⟨0, 0, 0, 0, 0, 0, 0, 0⟩ 0x0 0x1ff0 0x8102 (.one 0x10) [(0x2000, 0x80), (0x2001, 0x91), (0x2002, 0xa2), (0x2003, 0xb3), (0x2004, 0x7f), (0x2005, 0x1), (0x2006, 0x2), (0x2007, 0x3)])
      (fun t => [(t.reg .r0).toNat, psrToNat t.psr, t.pc.toNat]) = some [0xa29180, 0x0, 0x8104] ∧
  after (.ldaLoadSpPostInc .r0) (st ⟨0, 0, 0, 0, 0, 0, 0, 0⟩ 0x0 0xffc 0x8100 (.none) [(0xffc, 0x56), (0xffd, 0x34), (0xffe, 0x12), (0xfff, 0xff)])
      (fun t => [(t.reg .r0).toNat, psrToNat t.psr, t.sp.toNat, t.pc.toNat]) = some [0x123456, 0x0, 0x1000, 0x8102] ∧
  after (.ldaLoadSpPostDec .r0) (st ⟨0, 0, 0, 0, 0, 0, 0, 0⟩ 0x0 0x2000 0x8100 (.none) [(0x2000, 0x80), (0x2001, 0x91), (0x2002, 0xa2), (0x2003, 0xb3), (0x2004, 0x7f), (0x2005, 0x1), (0x2006, 0x2), (0x2007, 0x3)])
      (fun t => [(t.reg .r0).toNat, psrToNat t.psr, t.sp.toNat, t.pc.toNat]) = some [0xa29180, 0x0, 0x1ffc, 0x8102] ∧
  after (.ldaLoadSpPreDec .r0) (st ⟨0, 0, 0, 0, 0, 0, 0, 0⟩ 0x0 0x2004 0x8100 (.none) [(0x2000, 0x80), (0x2001, 0x91), (0x2002, 0xa2), (0x2003, 0xb3), (0x2004, 0x7f), (0x2005, 0x1), (0x2006, 0x2), (0x2007, 0x3)])
      (fun t => [(t.reg .r0).toNat, psrToNat t.psr, t.sp.toNat, t.pc.toNat]) = some [0xa29180, 0x0, 0x2000, 0x8102] ∧
  after (.ldaLoadSpDisp .r0 0x4) (st ⟨0, 0, 0, 0, 0, 0, 0, 0⟩ 0x0 0x1000 0x8102 (.one 0x1) [(0x1084, 0x56), (0x1085, 0x34), (0x1086, 0x12), (0x1087, 0x99)])
      (fun t => [(t.reg .r0).toNat, psrToNat t.psr, t.pc.toNat]) = some [0x123456, 0x0, 0x8104] := by
  decide

/-- Vectors 2.3-06, 2.3-04, 2.3-05, 1.1-01, 1.5-15. -/
theorem test_lda_store_sp :
  after (.ldaStoreSp .r0) (st ⟨0xabcdef, 0, 0, 0, 0, 0, 0, 0⟩ 0x0 0x1000 0x8100 (.none) [(0x1000, 0x11), (0x1001, 0x22), (0x1002, 0x33), (0x1003, 0x44)])
      (fun t => [psrToNat t.psr, t.pc.toNat, (t.mem.read 0x1000).toNat, (t.mem.read 0x1001).toNat, (t.mem.read 0x1002).toNat, (t.mem.read 0x1003).toNat]) = some [0x0, 0x8102, 0xef, 0xcd, 0xab, 0x0] ∧
  after (.ldaStoreSpPostInc .r0) (st ⟨0x123456, 0, 0, 0, 0, 0, 0, 0⟩ 0x0 0x1000 0x8100 (.none) [])
      (fun t => [psrToNat t.psr, t.sp.toNat, t.pc.toNat, (t.mem.read 0x1000).toNat, (t.mem.read 0x1001).toNat, (t.mem.read 0x1002).toNat, (t.mem.read 0x1003).toNat]) = some [0x0, 0x1004, 0x8102, 0x56, 0x34, 0x12, 0x0] ∧
  after (.ldaStoreSpPostDec .r0) (st ⟨0x123456, 0, 0, 0, 0, 0, 0, 0⟩ 0x0 0x1000 0x8100 (.none) [])
      (fun t => [psrToNat t.psr, t.sp.toNat, t.pc.toNat, (t.mem.read 0x1000).toNat, (t.mem.read 0x1001).toNat, (t.mem.read 0x1002).toNat, (t.mem.read 0x1003).toNat]) = some [0x0, 0xffc, 0x8102, 0x56, 0x34, 0x12, 0x0] ∧
  after (.ldaStoreSpPreDec .r0) (st ⟨0x123456, 0, 0, 0, 0, 0, 0, 0⟩ 0x0 0x1000 0x8100 (.none) [])
      (fun t => [psrToNat t.psr, t.sp.toNat, t.pc.toNat, (t.mem.read 0xffc).toNat, (t.mem.read 0xffd).toNat, (t.mem.read 0xffe).toNat, (t.mem.read 0xfff).toNat]) = some [0x0, 0xffc, 0x8102, 0x56, 0x34, 0x12, 0x0] ∧
  after (.ldaStoreSpDisp 0x4 .r0) (st ⟨0x123456, 0, 0, 0, 0, 0, 0, 0⟩ 0x0 0x1000 0x8102 (.one 0x1) [(0x1084, 0xff), (0x1085, 0xff), (0x1086, 0xff), (0x1087, 0xff)])
      (fun t => [psrToNat t.psr, t.pc.toNat, (t.mem.read 0x1084).toNat, (t.mem.read 0x1085).toNat, (t.mem.read 0x1086).toNat, (t.mem.read 0x1087).toNat]) = some [0x0, 0x8104, 0x56, 0x34, 0x12, 0x0] := by
  decide

/-- Vectors 2.8-01. -/
theorem test_nop :
  after .nop (st ⟨0, 0, 0, 0, 0, 0, 0, 0⟩ 0x1f 0x0 0x8100 (.none) [])
      (fun t => [psrToNat t.psr, t.pc.toNat]) = some [0x1f, 0x8102] := by
  decide

/-- Vectors 1.7-05. -/
theorem test_ei :
  after .ei (st ⟨0, 0, 0, 0, 0, 0, 0, 0⟩ 0x0 0x0 0x8100 (.none) [])
      (fun t => [psrToNat t.psr, t.pc.toNat]) = some [0x10, 0x8102] := by
  decide

/-- Vectors 1.7-04. -/
theorem test_di :
  after .di (st ⟨0, 0, 0, 0, 0, 0, 0, 0⟩ 0x10 0x0 0x8100 (.none) [])
      (fun t => [psrToNat t.psr, t.pc.toNat]) = some [0x0, 0x8102] := by
  decide

/-- Vectors 2.7-01, 1.6-07. -/
theorem test_jpr :
  after (.jprImm 0x1ff) (st ⟨0, 0, 0, 0, 0, 0, 0, 0⟩ 0x0 0x0 0x8100 (.none) [])
      (fun t => [psrToNat t.psr, t.pc.toNat]) = some [0x0, 0x8500] ∧
  after (.jprReg .r0) (st ⟨0xfffffe, 0, 0, 0, 0, 0, 0, 0⟩ 0x0 0x0 0x8100 (.none) [])
      (fun t => [psrToNat t.psr, t.pc.toNat]) = some [0x0, 0x8100] := by
  decide

/-- Vectors 1.6-06, 1.6-05. -/
theorem test_jpa :
  after (.jpaImm 0x0) (st ⟨0, 0, 0, 0, 0, 0, 0, 0⟩ 0x0 0x0 0x8102 (.one 0x300) [])
      (fun t => [psrToNat t.psr, t.pc.toNat]) = some [0x0, 0x18000] ∧
  after (.jpaReg .r0) (st ⟨0x9001, 0, 0, 0, 0, 0, 0, 0⟩ 0x0 0x0 0x8100 (.none) [])
      (fun t => [psrToNat t.psr, t.pc.toNat]) = some [0x0, 0x9000] := by
  decide

/-- Vectors 1.8-25, 2.1-15, 1.1-14. -/
theorem test_jr :
  after (.jrgt 0x0) (st ⟨0, 0, 0, 0, 0, 0, 0, 0⟩ 0x0 0x0 0x8102 (.one 0x1000) [])
      (fun t => [psrToNat t.psr, t.pc.toNat]) = some [0x0, 0xf08104] ∧
  after (.jreq 0x0) (st ⟨0, 0, 0, 0, 0, 0, 0, 0⟩ 0x2 0x0 0x8104 (.two 0x4 0x0) [])
      (fun t => [psrToNat t.psr, t.pc.toNat]) = some [0x2, 0x808106] ∧
  after (.jrne 0x4) (st ⟨0, 0, 0, 0, 0, 0, 0, 0⟩ 0x0 0x0 0x8100 (.none) [])
      (fun t => [psrToNat t.psr, t.pc.toNat]) = some [0x0, 0x810a] := by
  decide

/-- Vectors 1.6-02, 1.6-01. -/
theorem test_call :
  after (.callImm 0x0) (st ⟨0, 0, 0, 0, 0, 0, 0, 0⟩ 0x0 0x1000 0x8102 (.one 0x1fff) [])
      (fun t => [psrToNat t.psr, t.sp.toNat, t.pc.toNat, (t.mem.read 0xffc).toNat, (t.mem.read 0xffd).toNat, (t.mem.read 0xffe).toNat, (t.mem.read 0xfff).toNat]) = some [0x0, 0xffc, 0x7904, 0x4, 0x81, 0x0, 0x0] ∧
  after (.callReg .r0) (st ⟨0x101, 0, 0, 0, 0, 0, 0, 0⟩ 0x0 0x1000 0x8100 (.none) [])
      (fun t => [psrToNat t.psr, t.sp.toNat, t.pc.toNat, (t.mem.read 0xffc).toNat, (t.mem.read 0xffd).toNat, (t.mem.read 0xffe).toNat, (t.mem.read 0xfff).toNat]) = some [0x0, 0xffc, 0x8202, 0x2, 0x81, 0x0, 0x0] := by
  decide

/-- Vectors 1.6-04, 1.6-03. -/
theorem test_calla :
  after (.callaImm 0x0) (st ⟨0, 0, 0, 0, 0, 0, 0, 0⟩ 0x0 0x1000 0x8102 (.one 0x1fff) [])
      (fun t => [psrToNat t.psr, t.sp.toNat, t.pc.toNat, (t.mem.read 0xffc).toNat, (t.mem.read 0xffd).toNat, (t.mem.read 0xffe).toNat, (t.mem.read 0xfff).toNat]) = some [0x0, 0xffc, 0xfff80, 0x4, 0x81, 0x0, 0x0] ∧
  after (.callaReg .r0) (st ⟨0x9000, 0, 0, 0, 0, 0, 0, 0⟩ 0x0 0x1000 0x8100 (.none) [])
      (fun t => [psrToNat t.psr, t.sp.toNat, t.pc.toNat, (t.mem.read 0xffc).toNat, (t.mem.read 0xffd).toNat, (t.mem.read 0xffe).toNat, (t.mem.read 0xfff).toNat]) = some [0x0, 0xffc, 0x9000, 0x2, 0x81, 0x0, 0x0] := by
  decide

/-- Vectors 2.7-20. -/
theorem test_ret :
  after .ret (st ⟨0, 0, 0, 0, 0, 0, 0, 0⟩ 0x0 0xffc 0x8100 (.none) [(0xffc, 0x1), (0xffd, 0x90), (0xfff, 0xff)])
      (fun t => [psrToNat t.psr, t.sp.toNat, t.pc.toNat]) = some [0x0, 0x1000, 0x9000] := by
  decide

/-! ### The instructions whose vectors run more than one step: branches, entries, returns, the coprocessor -/

/-- The state of the vectors' branches with a mark in memory for each vector table entry: vectors 1, 5 and 8. -/
def stVectors (psr : Nat) (sp : Word) : State :=
  st ⟨0x123456, 0x8200, 0x654321, 0, 0, 0, 0, 0⟩ psr sp 0x8100 .none
    [(0x8001, 0x81), (0x8005, 0x83), (0x8015, 0x82), (0x8020, 0x01), (0x8021, 0x84), (0x8022, 0x01)]

/-- The commands a coprocessor instruction sends, from the state of `stVectors`. -/
def commands (i : Instr) : List CoproCall :=
  match exec i (stVectors 0 0) with
  | .next t => t.copro
  | .fault _ => []
  | .refused _ => []

/-- R342, R346, R348, R350, R352: a delayed jump goes on to its slot and remembers its target. -/
theorem test_delayed_jumps :
    after (.jprDelayedImm 0x3ff) (stVectors 0 0) (fun t => [t.pc.toNat, targetOf t]) = some [0x8102, 0x8100] ∧
    after (.jprDelayedReg .r1) (stVectors 0 0) (fun t => [t.pc.toNat, targetOf t]) = some [0x8102, 0x10302] ∧
    after (.jpaDelayedImm 0x7f) (stVectors 0 0) (fun t => [t.pc.toNat, targetOf t]) = some [0x8102, 0x7e] ∧
    after (.jpaDelayedReg .r2) (stVectors 0 0) (fun t => [t.pc.toNat, targetOf t]) = some [0x8102, 0x654320] := by
  decide

/-- R344, R353 to R371 at their boundary: the condition holds, with the flags in PSR bits C V Z N. -/
theorem test_conditional_jumps_taken :
    after (.jrgt 4) (stVectors 0x05 0) (fun t => [t.pc.toNat]) = some [0x810a] ∧
    after (.jrge 4) (stVectors 0x07 0) (fun t => [t.pc.toNat]) = some [0x810a] ∧
    after (.jrlt 4) (stVectors 0x04 0) (fun t => [t.pc.toNat]) = some [0x810a] ∧
    after (.jrle 4) (stVectors 0x07 0) (fun t => [t.pc.toNat]) = some [0x810a] ∧
    after (.jrugt 4) (stVectors 0x05 0) (fun t => [t.pc.toNat]) = some [0x810a] ∧
    after (.jruge 4) (stVectors 0x02 0) (fun t => [t.pc.toNat]) = some [0x810a] ∧
    after (.jrult 4) (stVectors 0x08 0) (fun t => [t.pc.toNat]) = some [0x810a] ∧
    after (.jrule 4) (stVectors 0x02 0) (fun t => [t.pc.toNat]) = some [0x810a] ∧
    after (.jreq 0x7f) (stVectors 0x02 0) (fun t => [t.pc.toNat]) = some [0x8100] ∧
    after (.jrne 0x40) (stVectors 0x0d 0) (fun t => [t.pc.toNat]) = some [0x8082] := by
  decide

/-- The condition does not hold: the next code, and mask interval (6) (R450). -/
theorem test_conditional_jumps_not_taken :
    after (.jrgt 4) (stVectors 0x02 0) (fun t => [t.pc.toNat, t.irqHold]) = some [0x8102, 1] ∧
    after (.jrge 4) (stVectors 0x04 0) (fun t => [t.pc.toNat, t.irqHold]) = some [0x8102, 1] ∧
    after (.jrlt 4) (stVectors 0x05 0) (fun t => [t.pc.toNat, t.irqHold]) = some [0x8102, 1] ∧
    after (.jrle 4) (stVectors 0x05 0) (fun t => [t.pc.toNat, t.irqHold]) = some [0x8102, 1] ∧
    after (.jrugt 4) (stVectors 0x0a 0) (fun t => [t.pc.toNat, t.irqHold]) = some [0x8102, 1] ∧
    after (.jruge 4) (stVectors 0x08 0) (fun t => [t.pc.toNat, t.irqHold]) = some [0x8102, 1] ∧
    after (.jrult 4) (stVectors 0x07 0) (fun t => [t.pc.toNat, t.irqHold]) = some [0x8102, 1] ∧
    after (.jrule 4) (stVectors 0x05 0) (fun t => [t.pc.toNat, t.irqHold]) = some [0x8102, 1] ∧
    after (.jreq 4) (stVectors 0x0d 0) (fun t => [t.pc.toNat, t.irqHold]) = some [0x8102, 1] ∧
    after (.jrne 4) (stVectors 0x02 0) (fun t => [t.pc.toNat, t.irqHold]) = some [0x8102, 1] := by
  decide

/-- R342 item 1: a delayed conditional jump tests the flags at the branch; not taken, PC goes on after the slot. -/
theorem test_delayed_conditional_jumps :
    after (.jrgtDelayed 4) (stVectors 0x05 0) (fun t => [targetOf t]) = some [0x810a] ∧
    after (.jrgeDelayed 4) (stVectors 0x04 0) (fun t => [targetOf t]) = some [0x8104] ∧
    after (.jrltDelayed 4) (stVectors 0x04 0) (fun t => [targetOf t]) = some [0x810a] ∧
    after (.jrleDelayed 4) (stVectors 0x05 0) (fun t => [targetOf t]) = some [0x8104] ∧
    after (.jrugtDelayed 4) (stVectors 0x05 0) (fun t => [targetOf t]) = some [0x810a] ∧
    after (.jrugeDelayed 4) (stVectors 0x08 0) (fun t => [targetOf t]) = some [0x8104] ∧
    after (.jrultDelayed 4) (stVectors 0x08 0) (fun t => [targetOf t]) = some [0x810a] ∧
    after (.jruleDelayed 4) (stVectors 0x05 0) (fun t => [targetOf t]) = some [0x8104] ∧
    after (.jreqDelayed 4) (stVectors 0x02 0) (fun t => [targetOf t]) = some [0x810a] ∧
    after (.jrneDelayed 4) (stVectors 0x02 0) (fun t => [targetOf t]) = some [0x8104] := by
  decide

/-- R341, R374 to R380: a delayed call pushes the address after its slot. -/
theorem test_delayed_calls :
    after (.callDelayedImm 0x10) (stVectors 0 0x1000) seenCall = some [0x8102, 0x8122, 0xffc, 0x04, 0x81, 0, 0] ∧
    after (.callDelayedReg .r1) (stVectors 0 0x1000) seenCall = some [0x8102, 0x10302, 0xffc, 0x04, 0x81, 0, 0] ∧
    after (.callaDelayedImm 0x11) (stVectors 0 0x1000) seenCall = some [0x8102, 0x10, 0xffc, 0x04, 0x81, 0, 0] ∧
    after (.callaDelayedReg .r2) (stVectors 0 0x1000) seenCall =
      some [0x8102, 0x654320, 0xffc, 0x04, 0x81, 0, 0] := by
  decide

/-- R382, R384: the delayed returns pop before their slot; `reti.d` restores PSR and opens two boundaries. -/
theorem test_delayed_returns :
    after .retDelayed { stVectors 0 0xffc with mem := [(0xffc, 0x41), (0xffd, 0x81), (0xfff, 0x7f)] }
      (fun t => [t.pc.toNat, targetOf t, t.sp.toNat, psrToNat t.psr, t.irqHold]) =
        some [0x8102, 0x8140, 0x1000, 0x00, 1] ∧
    after .retiDelayed { stVectors 0 0xffc with mem := [(0xffc, 0x40), (0xffd, 0x81), (0xfff, 0x7f)] }
      (fun t => [t.pc.toNat, targetOf t, t.sp.toNat, psrToNat t.psr, t.irqHold]) =
        some [0x8102, 0x8140, 0x1000, 0x7f, 2] ∧
    after .reti { stVectors 0 0xffc with mem := [(0xffc, 0x40), (0xffd, 0x81), (0xfff, 0xb5)] }
      (fun t => [t.pc.toNat, t.sp.toNat, psrToNat t.psr, t.irqHold, t.ieEffective.toNat]) =
        some [0x8140, 0x1000, 0xb5, 1, 1] := by
  decide

/-- R385, R386: PSR in the top byte, the next address below it, IE cleared, IL from `imm3` for `intl` only. -/
theorem test_software_interrupts :
    after (.intImm 5) (stVectors 0x5f 0x1000) seenEntry = some [0x8200, 0xffc, 0x4f, 0x02, 0x81, 0x00, 0x5f] ∧
    after (.intlImm 8 3) (stVectors 0x5f 0x1000) seenEntry =
      some [0x18400, 0xffc, 0x6f, 0x02, 0x81, 0x00, 0x5f] ∧
    faultOf (exec (.intImm 5) (inDebug (stVectors 0 0x1000))) = some .interruptInDebugMode ∧
    faultOf (exec (.intlImm 8 3) (inDebug (stVectors 0 0x1000))) = some .interruptInDebugMode := by
  decide

/-- R387, R388, R460: PSR, the next address and R0 at DBRAM, and back. -/
theorem test_debug_instructions :
    after .brk (stVectors 0xff 0x1000) (fun t => [t.pc.toNat, t.dcr.dm.toNat, psrToNat t.psr, t.sp.toNat,
      (t.mem.read 0xfc0).toNat, (t.mem.read 0xfc1).toNat, (t.mem.read 0xfc3).toNat,
      (t.mem.read 0xfc4).toNat, (t.mem.read 0xfc6).toNat]) =
        some [0xfffc00, 1, 0xef, 0x1000, 0x02, 0x81, 0xff, 0x56, 0x12] ∧
    faultOf (exec .brk (inDebug (stVectors 0 0))) = some .brkInDebugMode ∧
    after .retd { inDebug (stVectors 0 0x1000) with
        mem := [(0xfc0, 0x02), (0xfc1, 0x81), (0xfc3, 0xff), (0xfc4, 0x21), (0xfc6, 0x43), (0xfc7, 0x99)] }
      (fun t => [t.pc.toNat, t.dcr.dm.toNat, psrToNat t.psr, (t.reg .r0).toNat, t.dbgHold.toNat]) =
        some [0x8102, 0, 0xff, 0x430021, 1] ∧
    faultOf (exec .retd (stVectors 0 0)) = some .retdInUserMode := by
  decide

/-- R402 to R405: power-down sees IE at once; `ei` and `di` lag by 1 to 3 boundaries. -/
theorem test_system_control :
    after .halt (stVectors 0x10 0) (fun t => [t.pc.toNat, t.irqHold, t.ieLag]) = some [0x8102, 1, 0] ∧
    after .slp (stVectors 0x10 0) (fun t => [t.pc.toNat, t.irqHold, t.ieLag]) = some [0x8102, 1, 0] ∧
    after .ei (stVectors 0x0f 0) (fun t => [psrToNat t.psr, t.ieEffective.toNat, t.freeCount]) =
      some [0x1f, 0, 1] ∧
    after .di (stVectors 0x1f 0) (fun t => [psrToNat t.psr, t.ieEffective.toNat, t.freeCount]) =
      some [0x0f, 1, 1] ∧
    after .nop (stVectors 0x1f 0) (fun t => [t.pc.toNat, t.irqHold]) = some [0x8102, 0] := by
  decide

/-- R150: the last two `ext` are kept. -/
theorem test_ext :
    (match exec (.ext 3) { stVectors 0 0 with ext := .two 1 2 } with
      | .next t => some (t.ext, t.pc, t.irqHold, t.dbgHold)
      | .fault _ => none
      | .refused _ => none) = some (.two 2 3, 0x8102, 1, true) := by
  decide

/-- R420 to R426: the commands the coprocessor receives; `ld.cw` and `ld.cf` leave `rd` alone. -/
theorem test_coprocessor_commands :
    commands (.ldcwRR .r0 .r2) = [⟨.cw, 0x123456, 0x654321⟩] ∧
    commands (.ldcwImm .r0 0x7f) = [⟨.cw, 0x123456, 0x7f⟩] ∧
    commands (.ldcaRR .r0 .r2) = [⟨.ca, 0x123456, 0x654321⟩] ∧
    commands (.ldcaImm .r0 0x7f) = [⟨.ca, 0x123456, 0x7f⟩] ∧
    commands (.ldcfRR .r0 .r2) = [⟨.cf, 0x123456, 0x654321⟩] ∧
    commands (.ldcfImm .r0 0x7f) = [⟨.cf, 0x123456, 0x7f⟩] ∧
    after (.ldcwRR .r0 .r2) (stVectors 0x1f 0) (fun t => [(t.reg .r0).toNat, psrToNat t.psr]) =
      some [0x123456, 0x1f] ∧
    after (.ldcfRR .r0 .r2) (stVectors 0x1f 0) (fun t => [(t.reg .r0).toNat, t.pc.toNat]) =
      some [0x123456, 0x8102] := by
  decide

/-- R213: `ld.a %rd,%pc` in the slot of a jump, of a call, and outside a slot. -/
theorem test_program_counter_read :
    after (.ldaRdPc .r3) { stVectors 0 0 with delay := some ⟨0x9000, .jump⟩ } (fun t => [(t.reg .r3).toNat]) =
      some [0x8102] ∧
    faultOf (exec (.ldaRdPc .r3) { stVectors 0 0 with delay := some ⟨0x9000, .callOrReturn⟩ }) =
      some .pcReadOutsideDelaySlot ∧
    faultOf (exec (.ldaRdPc .r3) (stVectors 0 0)) = some .pcReadOutsideDelaySlot := by
  decide

/-- R312, R291: a compare whose condition does not hold writes no flag. -/
theorem test_conditional_compare :
    after (.cmpC .r0 .r1) (stVectors 0x07 0) (fun t => [psrToNat t.psr, t.pc.toNat]) = some [0x07, 0x8102] ∧
    after (.cmpC .r0 .r0) (stVectors 0x0d 0) (fun t => [psrToNat t.psr]) = some [0x0a] ∧
    after (.cmpaC .r0 .r0) (stVectors 0x0d 0) (fun t => [psrToNat t.psr]) = some [0x0f] := by
  decide

/-- R66, R443: a misaligned 16-bit load completes at the even address and then goes to vector 1 with its own
address. -/
theorem test_misaligned_load :
    after (.ldLoadInd .r3 .r4) { stVectors 0x10 0x1000 with
        regs := ⟨0, 0, 0, 0, 0x2001, 0, 0, 0⟩
        mem := [(0x2000, 0x34), (0x2001, 0x12), (0x8005, 0x83)] }
      (fun t => (t.reg .r3).toNat :: seenEntry t) =
        some [0x1234, 0x8300, 0xffc, 0x00, 0x00, 0x81, 0x00, 0x10] := by
  decide

/-- R490, R430 A: a reset loads PC from vector 0. -/
theorem test_reset_step :
    afterStep { stVectors 0xff 0x1000 with env := [{ idleInputs with reset := true }] }
      (fun t => [t.pc.toNat, t.sp.toNat, psrToNat t.psr, (t.reg .r0).toNat, t.env.length]) =
        some [0x8100, 0, 0, 0, 0] := by
  decide

/-- R430: a step fetches little endian, decodes and runs; a slot instruction is followed by the jump. -/
theorem test_step :
    afterStep (stVectors 0 0 |>.withFetchWord 16 0x4001) (fun t => [t.pc.toNat]) = some [0x8102] ∧
    afterStep (stVectors 0 0 |>.withFetchWord 16 0x3842) (fun t => [(t.reg .r0).toNat, t.pc.toNat]) =
      some [0x007777, 0x8102] ∧
    afterStep ({ stVectors 0 0 with delay := some ⟨0x9000, .jump⟩ } |>.withFetchWord 16 0x0000)
      (fun t => [t.pc.toNat, t.delay.isSome.toNat]) = some [0x9000, 0] ∧
    faultOf (step ({ stVectors 0 0 with delay := some ⟨0x9000, .jump⟩ } |>.withFetchWord 16 0x0008)) =
      some .illegalDelaySlot ∧
    faultOf (step (stVectors 0 0 |>.withFetchWord 16 0x0001)) = some .unassignedOpcode ∧
    decodeTableWord 16 0x3842 = some (.addRR .r0 .r2) := by
  decide

/-! ### Witnesses: a state and operands that meet the hypotheses of each statement that has any -/

/-- A machine with R1 and SP at the last word of RAM. -/
def wst : State := { st ⟨0x123456, 0x7ffc, 0x20, 3, 5, 0, 0, 0⟩ 0x10 0x7ffc 0x8100 .none [] with
  memMap := [⟨0, 0x8000, .ram⟩, ⟨0x8000, 0x8000, .rom⟩] }

/-- The same with carry set. -/
def wstC : State := { wst with psr := psrOfNat 0x18 }

theorem wst_wf : WellFormedState wst := by constructor <;> decide

theorem wst_atMostOneExt : AtMostOneExt wst := by intro e1 e2 h; cases h

theorem canLoad_of {s : State} {w : Width} {a : Word} {v : BitVec 32} (h : memRead s w a = .next v) :
    CanLoad s w a v := (memRead_next s w a v).mp h

theorem canStore_of {s u : State} {w : Width} {a : Word} (h : memWrite s w a 0 = .next u) : CanStore s w a :=
  (memWrite_completes s w a 0).mpr ⟨u, h⟩

theorem witness_EncodeInvertsDecode : decodeWord 0xffff = some (.ldaStoreSpDisp 0x7f .r7) := by decide

/-- From memory, and from the last code of a debug firmware. -/
theorem witness_UnassignedCodeFaults :
    (let s := wst.withFetchWord 16 0x0001
     let b := afterBoundary s
     RunsInstruction s ∧ FetchesFrom b.mem b ∧
       decodeBytes [b.mem.read b.pc.toNat, b.mem.read (b.pc.toNat + 1)] = .error .unassignedOpcode) ∧
    (let s := { wst with pc := 0xfffffe, debugFw := some [(0xfffffe, 1)] }
     let b := afterBoundary s
     RunsInstruction s ∧ FetchesFrom [(0xfffffe, 1)] b ∧
       decodeBytes [Memory.read [(0xfffffe, 1)] b.pc.toNat, Memory.read [(0xfffffe, 1)] (b.pc.toNat + 1)] =
         .error .unassignedOpcode) :=
  ⟨⟨⟨rfl, rfl, rfl⟩, ⟨rfl, by decide⟩, rfl⟩, ⟨rfl, rfl, rfl⟩, rfl, rfl⟩

theorem witness_CoreRegisterAccesses : ∀ p ∈ [(Width.word, (0xfffc00 : Word)), (.half, 0xffff80),
    (.word, 0xffff84), (.byte, 0xffff80), (.byte, 0xffffff)],
    Config.coreAreaBase ≤ p.2 ∧ coreRegisterAt p.1 p.2 = false := by decide

/-- Each width at its first and its last aligned address in RAM, the 16-bit one also at 2 modulo 4. -/
theorem witness_MemoryReadAfterWrite : wst.mem.wf = true ∧ (0x7fff : Word) < Config.coreAreaBase ∧
    (∀ a ∈ [(0 : Word), 0x7ffc], a.toNat % 4 = 0 ∧ ∃ u, memWrite wst .word a 0x12345678 = .next u) ∧
    (∀ a ∈ [(0 : Word), 2, 0x7ffe], a.toNat % 2 = 0 ∧ ∃ u, memWrite wst .half a 0x12345678 = .next u) ∧
    ∀ a ∈ [(0 : Word), 1, 0x7fff], ∃ u, memWrite wst .byte a 0x12345678 = .next u := by
  refine ⟨rfl, by decide, fun a ha => ?_, fun a ha => ?_, fun a ha => ?_⟩ <;> fin_cases ha
  all_goals first | exact ⟨rfl, _, rfl⟩ | exact ⟨_, rfl⟩

/-- A map with every kind of region side by side and a protected range in RAM. -/
def wmap : State := { wst with
  memMap := [⟨0, 0x100, .ram⟩, ⟨0x100, 0x100, .rom⟩, ⟨0x200, 0x100, .device⟩, ⟨0x300, 0x100, .ram⟩]
  codeRegion := [⟨0x20, 0x10⟩] }

/-- Each clause at the boundary between two regions, byte 2 of a word. -/
theorem witness_AccessFaults :
    (∀ j < 2, kindAt wmap.memMap (0x1fe + j) = some .ram ∨ kindAt wmap.memMap (0x1fe + j) = some .rom) ∧
    kindAt wmap.memMap (0x1fe + 2) = some .device ∧
    (∀ j < 2, kindAt wmap.memMap (0x3fe + j) = some .ram ∧ inCodeRegion wmap.codeRegion (0x3fe + j) = false) ∧
    kindAt wmap.memMap (0x3fe + 2) = none ∧
    (∀ j < 2, kindAt wmap.memMap (0xfe + j) = some .ram ∧ inCodeRegion wmap.codeRegion (0xfe + j) = false) ∧
    kindAt wmap.memMap (0xfe + 2) = some .rom ∧
    (∀ j < 2, kindAt wmap.memMap (0x1e + j) = some .ram ∧ inCodeRegion wmap.codeRegion (0x1e + j) = false) ∧
    kindAt wmap.memMap (0x1e + 2) = some .ram ∧ inCodeRegion wmap.codeRegion (0x1e + 2) = true ∧
    kindAt wmap.memMap (0x200 + 0) = some .device ∧ 2 < Width.word.bytes ∧ 0 < Width.byte.bytes := by decide

theorem witness_OnlyExtLeavesPrefixPending : (∃ t, exec .nop wst = .next t) ∧ ∀ e, Instr.nop ≠ .ext e :=
  ⟨⟨_, rfl⟩, by intro e h; cases h⟩

theorem witness_OperandFaults :
    (¬ AtMostOneExt { wst with ext := .two 0 0 }) ∧ modifyingLoads wst .r1 .r1 ≠ [] ∧
    preModifyingStores wst .r1 .r1 ≠ [] ∧ stepNat 4 (.one 2) % 4 ≠ 0 ∧ stepNat 4 (.two 0 0x1fff) % 4 ≠ 0 :=
  ⟨fun h => h 0 0 rfl, by simp [modifyingLoads], by simp [preModifyingStores], by decide, by decide⟩

theorem witness_ImmediateAndStackPointerLoads :
    AtMostOneExt wst ∧ AtMostOneExt { wst with ext := .one 0x1fff } :=
  ⟨wst_atMostOneExt, by intro e1 e2 h; cases h⟩

theorem witness_ProgramCounterRead :
    (∃ d, ({ wst with delay := some ⟨0, .jump⟩ } : State).delay = some d ∧ d.kind = .jump) ∧
    ¬ ∃ d, wst.delay = some d ∧ d.kind = .jump :=
  ⟨⟨_, rfl, rfl⟩, by rintro ⟨d, h, -⟩; cases h⟩

/-- Every plain load, at the last word of RAM and at address 0. -/
theorem witness_PlainLoadResults : ∀ f ∈ plainLoads wst .r0 .r1 0,
    Aligned f.kind f.address ∧ ∃ v, CanLoad wst f.kind.width f.address v := by
  intro f hf
  simp only [plainLoads] at hf
  fin_cases hf <;> exact ⟨rfl, _, canLoad_of rfl⟩

/-- A load of each width in the core-reserved area, and one that `MEM_MAP` ends. -/
theorem witness_loads_in_core_area :
    (∃ v, CanLoad wst .word 0xffff80 v) ∧ (∃ v, CanLoad wst .byte 0xffffc2 v) ∧ ∃ v, CanLoad wst .half 0xfffe v :=
  ⟨⟨_, canLoad_of rfl⟩, ⟨_, canLoad_of rfl⟩, ⟨_, canLoad_of rfl⟩⟩

theorem witness_ModifyingLoadResults : Reg.r0 ≠ .r1 ∧ ∀ f ∈ modifyingLoads { wst with ext := .one 4 } .r0 .r1,
    Aligned f.kind f.address ∧ ∃ v, CanLoad wst f.kind.width f.address v := by
  refine ⟨by decide, fun f hf => ?_⟩
  simp only [modifyingLoads, modifyForm] at hf
  fin_cases hf <;> exact ⟨rfl, _, canLoad_of rfl⟩

theorem witness_PlainStoreResults : ∀ f ∈ plainStores wst .r1 .r0 0,
    Aligned f.kind f.address ∧ CanStore wst f.kind.width f.address := by
  intro f hf
  simp only [plainStores] at hf
  fin_cases hf <;> exact ⟨rfl, canStore_of rfl⟩

/-- A store of each width to a register of the core, and none to a 16-bit one. -/
theorem witness_stores_in_core_area : CanStore wst .word 0xffffb4 ∧ CanStore wst .byte 0xffffa0 ∧
    coreRegisterAt .half 0xffffb4 = false := ⟨canStore_of rfl, canStore_of rfl, rfl⟩

theorem witness_ModifyingStoreResults :
    (∀ f ∈ postModifyingStores wst .r1 .r1, Aligned f.kind f.address ∧ CanStore wst f.kind.width f.address) ∧
    Reg.r0 ≠ .r1 ∧ ∀ f ∈ preModifyingStores wst .r1 .r0,
      Aligned f.kind f.address ∧ CanStore wst f.kind.width f.address := by
  refine ⟨fun f hf => ?_, by decide, fun f hf => ?_⟩
  · simp only [postModifyingStores, modifyForm] at hf
    fin_cases hf <;> exact ⟨rfl, canStore_of rfl⟩
  · simp only [preModifyingStores, modifyForm] at hf
    fin_cases hf <;> exact ⟨rfl, canStore_of rfl⟩

theorem witness_StackPointerModifyingTransfers : stepNat 4 wst.ext % 4 = 0 ∧
    (∀ f ∈ spLoads wst .r0, Aligned .address f.address ∧ ∃ v, CanLoad wst .word f.address v) ∧
    ∀ f ∈ spStores wst .r0, Aligned .address f.address ∧ CanStore wst .word f.address := by
  refine ⟨rfl, fun f hf => ?_, fun f hf => ?_⟩
  · simp only [spLoads, spForm] at hf
    fin_cases hf <;> exact ⟨rfl, _, canLoad_of rfl⟩
  · simp only [spStores, spForm] at hf
    fin_cases hf <;> exact ⟨rfl, canStore_of rfl⟩

/-- R1 one below the end of RAM, and a step of 2. -/
def wodd : State := { wst with regs := ⟨0, 0x7fff, 0, 0, 0, 0, 0, 0⟩ }

theorem witness_MisalignedTransferTakesInterrupt : wodd.delay = none ∧ wodd.dcr.dm = false ∧
    (∃ f ∈ plainLoads wodd .r0 .r1 1, ¬ Aligned f.kind f.address ∧
      ∃ v, CanLoad wodd f.kind.width (alignedTo f.kind f.address) v) ∧
    (∃ f ∈ modifyingLoads wodd .r0 .r1, ¬ Aligned f.kind f.address ∧
      ∃ v, CanLoad wodd f.kind.width (alignedTo f.kind f.address) v) ∧
    (∃ f ∈ plainStores wodd .r1 .r0 1, ¬ Aligned f.kind f.address ∧
      ∃ u, memWrite wodd f.kind.width (alignedTo f.kind f.address) (zeroTop (wodd.reg .r0)) = .next u) ∧
    (∃ f ∈ postModifyingStores wodd .r1 .r0, ¬ Aligned f.kind f.address ∧
      ∃ u, memWrite wodd f.kind.width (alignedTo f.kind f.address) (zeroTop (wodd.reg .r0)) = .next u) ∧
    (∃ f ∈ preModifyingStores wodd .r1 .r0, ¬ Aligned f.kind f.address ∧
      ∃ u, memWrite wodd f.kind.width (alignedTo f.kind f.address) (zeroTop (wodd.reg .r0)) = .next u) :=
  ⟨rfl, rfl, ⟨_, List.mem_of_getElem? (i := 2) rfl, by unfold Aligned; decide, _, canLoad_of rfl⟩,
    ⟨_, List.mem_of_getElem? (i := 6) rfl, by unfold Aligned; decide, _, canLoad_of rfl⟩,
    ⟨_, List.mem_of_getElem? (i := 1) rfl, by unfold Aligned; decide, _, rfl⟩,
    ⟨_, List.mem_of_getElem? (i := 2) rfl, by unfold Aligned; decide, _, rfl⟩,
    ⟨_, List.mem_of_getElem? (i := 2) rfl, by unfold Aligned; decide, _, rfl⟩⟩

/-- The SP clause of the same statement: an aligned SP and a step of 2. -/
theorem witness_MisalignedStackPointerStep :
    let s := { wst with ext := .one 2 }
    stepNat 4 s.ext % 4 ≠ 0 ∧ s.sp.toNat % 4 = 0 ∧
    (∃ v, CanLoad s .word (alignedTo .address (s.sp - BitVec.ofNat 24 (stepNat 4 s.ext))) v) ∧
    ∃ u, memWrite s .word (alignedTo .address (s.sp - BitVec.ofNat 24 (stepNat 4 s.ext)))
      (zeroTop (s.reg .r0)) = .next u :=
  ⟨by decide, rfl, ⟨_, canLoad_of rfl⟩, _, rfl⟩

/-- The two modes, each with a misaligned load and a misaligned store at the end of RAM. -/
theorem witness_MisalignedTransferFaults :
    ({ wodd with delay := some ⟨0, .jump⟩ } : State).delay ≠ none ∧
    (inDebug wodd).delay = none ∧ (inDebug wodd).dcr.dm = true ∧
    (∃ f ∈ plainLoads (inDebug wodd) .r0 .r1 1, ¬ Aligned f.kind f.address ∧
      ∃ v, CanLoad (inDebug wodd) f.kind.width (alignedTo f.kind f.address) v) ∧
    (∃ f ∈ modifyingLoads (inDebug wodd) .r0 .r1, ¬ Aligned f.kind f.address ∧
      ∃ v, CanLoad (inDebug wodd) f.kind.width (alignedTo f.kind f.address) v) ∧
    (∃ f ∈ plainStores (inDebug wodd) .r1 .r0 1, ¬ Aligned f.kind f.address ∧
      CanStore (inDebug wodd) f.kind.width (alignedTo f.kind f.address)) ∧
    (∃ f ∈ postModifyingStores (inDebug wodd) .r1 .r0, ¬ Aligned f.kind f.address ∧
      CanStore (inDebug wodd) f.kind.width (alignedTo f.kind f.address)) ∧
    ∃ f ∈ preModifyingStores (inDebug wodd) .r1 .r0, ¬ Aligned f.kind f.address ∧
      CanStore (inDebug wodd) f.kind.width (alignedTo f.kind f.address) :=
  ⟨by simp, rfl, rfl, ⟨_, List.mem_of_getElem? (i := 2) rfl, by unfold Aligned; decide, _, canLoad_of rfl⟩,
    ⟨_, List.mem_of_getElem? (i := 6) rfl, by unfold Aligned; decide, _, canLoad_of rfl⟩,
    ⟨_, List.mem_of_getElem? (i := 1) rfl, by unfold Aligned; decide, canStore_of rfl⟩,
    ⟨_, List.mem_of_getElem? (i := 2) rfl, by unfold Aligned; decide, canStore_of rfl⟩,
    ⟨_, List.mem_of_getElem? (i := 2) rfl, by unfold Aligned; decide, canStore_of rfl⟩⟩

/-- The SP clause of the same statement, in debug mode and in a slot: an aligned SP and a step of 2. -/
theorem witness_MisalignedStackPointerFaults : ∀ s ∈ [inDebug { wst with ext := .one 2 },
      { wst with ext := .one 2, delay := some ⟨0, .jump⟩ }],
    (s.delay ≠ none ∨ s.dcr.dm = true) ∧ stepNat 4 s.ext % 4 ≠ 0 ∧ s.sp.toNat % 4 = 0 ∧
    (∃ v, CanLoad s .word (alignedTo .address (s.sp - BitVec.ofNat 24 (stepNat 4 s.ext))) v) ∧
    CanStore s .word (alignedTo .address (s.sp - BitVec.ofNat 24 (stepNat 4 s.ext))) := by
  intro s hs
  fin_cases hs <;> exact ⟨by decide, by decide, rfl, ⟨_, canLoad_of rfl⟩, canStore_of rfl⟩

theorem witness_LogicResults : AtMostOneExt wst := wst_atMostOneExt

theorem witness_AddSubtractImmediateResults : AtMostOneExt { wst with ext := .one 0x1fff } := by
  intro e1 e2 h; cases h

theorem witness_CompareResults : AtMostOneExt wstC := by intro e1 e2 h; cases h

theorem witness_ConditionalForms : wst.psr.c = false ∧ wstC.psr.c = true ∧ conditionalForms .r0 .r1 ≠ [] :=
  ⟨rfl, rfl, by simp [conditionalForms]⟩

/-- Amounts of 0, of 3, 4, 7 and 8, where the clauses of R320 meet, and of 0x7ffc. -/
theorem witness_ShiftResults : (shiftForms wst .r1 .r5 0).map (fun f => shiftBits f.operand) = [0, 0, 0, 0, 0, 0] ∧
    (shiftForms wst .r1 .r3 4).map (fun f => shiftBits f.operand) = [3, 4, 3, 4, 3, 4] ∧
    (shiftForms wst .r1 .r1 7).map (fun f => shiftBits f.operand) = [8, 4, 8, 4, 8, 4] := ⟨rfl, rfl, rfl⟩

theorem witness_ComparisonDecidesConditions : wst.ext = .none ∧ ∃ t, exec (.cmpRR .r0 .r1) wst = .next t :=
  ⟨rfl, _, rfl⟩

theorem witness_MultiWordArithmetic : wst.ext = .none ∧ Reg.r0 ≠ .r1 ∧ Reg.r0 ≠ .r3 ∧
    (∃ t, exec (.addRR .r0 .r2) wst = .next t ∧ ∃ u, exec (.adcRR .r1 .r3) t = .next u) ∧
    ∃ t, exec (.subRR .r0 .r2) wst = .next t ∧ ∃ u, exec (.sbcRR .r1 .r3) t = .next u :=
  ⟨rfl, by decide, by decide, ⟨_, rfl, _, rfl⟩, _, rfl, _, rfl⟩

theorem witness_JumpResults : AtMostOneExt wst ∧ jumps wst .r1 0 ≠ [] :=
  ⟨wst_atMostOneExt, by simp [jumps]⟩

theorem witness_DelayedJumpResults : AtMostOneExt wst ∧ jumps wst .r1 0 ≠ [] :=
  ⟨wst_atMostOneExt, by simp [jumps]⟩

theorem witness_ConditionalJumps : (condJumps 4 wst.psr).map (fun f => f.taken) =
    [true, true, false, false, true, true, false, false, false, true] ∧
    (condJumps 4 (psrOfNat 0x0b)).map (fun f => f.taken) =
      [false, false, true, true, false, false, true, true, true, false] := by decide

theorem witness_CallResults : CanStore wst .word (align4 (wst.sp - 4)) ∧ AtMostOneExt wst ∧
    CanStore { wst with sp := 4 } .word (align4 (4 - 4)) ∧ calls wst .r1 0 ≠ [] :=
  ⟨canStore_of rfl, wst_atMostOneExt, canStore_of rfl, by simp [calls]⟩

theorem witness_ReturnResults : ∃ w, CanLoad wst .word wst.sp w := ⟨_, canLoad_of rfl⟩

theorem witness_InterruptReturnResults : ∃ w, CanLoad { wst with sp := 0 } .word 0 w := ⟨_, canLoad_of rfl⟩

theorem witness_SoftwareInterruptResults : (inDebug wst).dcr.dm = true ∧ wst.dcr.dm = false ∧
    ∃ u w, memWrite wst .word (align4 (wst.sp - 4)) (savedWord wst.psr (wst.pc + 2)) = .next u ∧
      CanLoad u .word (wst.ttbr + BitVec.ofNat 24 (4 * (31 : BitVec 5).toNat)) w :=
  ⟨rfl, rfl, _, _, rfl, canLoad_of rfl⟩

theorem witness_DebugInstructionResults : (inDebug wst).dcr.dm = true ∧ wst.dcr.dm = false ∧
    (∃ u1 u2, memWrite wst .word wst.dbram (savedWord wst.psr (wst.pc + 2)) = .next u1 ∧
      memWrite u1 .word (wst.dbram + 4) (zeroTop (wst.reg .r0)) = .next u2) ∧
    ∃ w w0, CanLoad (inDebug wst) .word wst.dbram w ∧ CanLoad (inDebug wst) .word (wst.dbram + 4) w0 :=
  ⟨rfl, rfl, ⟨_, _, rfl, rfl⟩, _, _, canLoad_of rfl, canLoad_of rfl⟩

theorem witness_CoprocessorResults : coproForms .ldcwRR .ldcwImm wst .r0 .r1 0x7f ≠ [] := by simp [coproForms]

theorem witness_InterruptEntryEffect :
    ∃ u w, memWrite wst .word (align4 (wst.sp - 4)) (savedWord wst.psr wst.pc) = .next u ∧
      CanLoad u .word (wst.ttbr + BitVec.ofNat 24 (4 * (0 : BitVec 5).toNat)) w :=
  ⟨_, _, rfl, canLoad_of rfl⟩

theorem witness_DebugEntryEffect :
    ∃ u1 u2, memWrite wst .word wst.dbram (savedWord wst.psr wst.pc) = .next u1 ∧
      memWrite u1 .word (wst.dbram + 4) (zeroTop (wst.reg .r0)) = .next u2 := ⟨_, _, rfl, rfl⟩

/-- One request of each kind is accepted: a forced break, an NMI and a maskable request one level above IL. -/
theorem witness_StepAcceptsRequest :
    (selectRequest { idleInputs with debugRequest := true }
      (applyInputs { idleInputs with debugRequest := true } wst)).1 = some .debug ∧
    (selectRequest { idleInputs with nmi := true } { wst with nmiArmed := true }).1 = some .nmi ∧
    (selectRequest { idleInputs with maskable := some ⟨1, 9⟩ } { wst with ieEffective := true }).1 =
      some (.maskable 1 9) ∧
    (selectRequest { idleInputs with maskable := some ⟨0, 9⟩ } { wst with ieEffective := true }).1 = none ∧
    (let s := { wst with nmiArmed := true, env := [{ idleInputs with nmi := true }] };
      (inputsNow s).reset = false ∧ awake s.runState (inputsNow s) = true ∧
      ∃ b, selectRequest (inputsNow s) (applyInputs (inputsNow s) (consumeInputs s)) = (some .nmi, b)) :=
  ⟨by decide, by decide, by decide, by decide, rfl, rfl, _, rfl⟩

/-- A `nop` fetched at the start of the debug firmware. -/
theorem witness_CodeAtPc_firmware :
    let s := { wst with pc := 0xfffc00, debugFw := some [] }
    RunsInstruction s ∧ CodeAtPc .nop (afterBoundary s) ∧ (afterBoundary s).delay = none :=
  ⟨⟨rfl, rfl, rfl⟩, ⟨_, rfl, rfl⟩, rfl⟩

/-- Outside a slot, in a slot, and in a slot that the instruction may not stand in. -/
theorem witness_StepRunsDecodedInstruction :
    (let s := wst.withFetchWord 16 0x3841;
      RunsInstruction s ∧ CodeAtPc (.addRR .r0 .r1) (afterBoundary s) ∧ (afterBoundary s).delay = none) ∧
    (let s := ({ wst with delay := some ⟨0x9000, .jump⟩ } : State).withFetchWord 16 0x3841;
      RunsInstruction s ∧ CodeAtPc (.addRR .r0 .r1) (afterBoundary s) ∧
      (afterBoundary s).delay = some ⟨0x9000, .jump⟩ ∧ ¬ ForbiddenInSlot (.addRR .r0 .r1)) ∧
    (let s := ({ wst with delay := some ⟨0x9000, .jump⟩ } : State).withFetchWord 16 0x0008;
      RunsInstruction s ∧ CodeAtPc .halt (afterBoundary s) ∧
      (afterBoundary s).delay = some ⟨0x9000, .jump⟩ ∧ ForbiddenInSlot .halt) :=
  ⟨⟨⟨rfl, rfl, rfl⟩, ⟨_, ⟨rfl, by decide⟩, rfl⟩, rfl⟩,
    ⟨⟨rfl, rfl, rfl⟩, ⟨_, ⟨rfl, by decide⟩, rfl⟩, rfl, fun h => nomatch (allowedInSlot_eq_false_iff _).mpr h⟩,
    ⟨rfl, rfl, rfl⟩, ⟨_, ⟨rfl, by decide⟩, rfl⟩, rfl, (allowedInSlot_eq_false_iff _).mp rfl⟩

/-- Each mode without its wake event, in SLEEP with that of the other mode. -/
theorem witness_PowerDownWaits :
    let halted := { wst with runState := .halted }
    let sleeping := { wst with runState := .sleeping, env := [{ idleInputs with wakeHalt := true }] }
    ((inputsNow halted).reset = false ∧ ¬ GoesOn halted (inputsNow halted)) ∧
    (inputsNow sleeping).reset = false ∧ ¬ GoesOn sleeping (inputsNow sleeping) := by
  unfold GoesOn; decide

/-- A core that runs, one woken from each mode, and one that takes a forced break and the serial inputs. -/
theorem witness_WakeAndInputs : ∀ s ∈ [wst,
      { wst with runState := .halted, env := [{ idleInputs with wakeHalt := true }] },
      { wst with runState := .sleeping, env := [{ idleInputs with wakeSleep := true }] },
      { wst with env := [{ idleInputs with
          debugRequest := true, serialTdbe := some false, serialRdbf := some true, serialData := some 0xff }] }],
    (inputsNow s).reset = false ∧ GoesOn s (inputsNow s) := by
  unfold GoesOn; decide

/-- Each clause: no firmware at the first address of the area, and a map that ends or becomes a device at each
byte of the code. -/
theorem witness_FetchStops :
    (let s := { wst with pc := 0xfffc00 }
     RunsInstruction s ∧ Config.coreAreaBase ≤ (afterBoundary s).pc ∧ (afterBoundary s).debugFw = none) ∧
    (let s := { wst with pc := 0x10000 }
     RunsInstruction s ∧ (afterBoundary s).pc < Config.coreAreaBase ∧
       kindAt (afterBoundary s).memMap ((afterBoundary s).pc.toNat + 0) = none) ∧
    (let s := { wmap with pc := 0x200 }
     RunsInstruction s ∧ (afterBoundary s).pc < Config.coreAreaBase ∧
       kindAt (afterBoundary s).memMap ((afterBoundary s).pc.toNat + 0) = some .device) ∧
    ∀ k ∈ [none, some RegionKind.device],
      let s := { wst with
        memMap := ⟨0, 0x8101, .rom⟩ :: (k.map fun kind => Region.mk 0x8101 1 kind).toList }
      RunsInstruction s ∧ (afterBoundary s).pc < Config.coreAreaBase ∧
        (∀ j < 1, kindAt (afterBoundary s).memMap ((afterBoundary s).pc.toNat + j) = some .ram ∨
          kindAt (afterBoundary s).memMap ((afterBoundary s).pc.toNat + j) = some .rom) ∧
        kindAt (afterBoundary s).memMap ((afterBoundary s).pc.toNat + 1) = k := by
  refine ⟨⟨⟨rfl, rfl, rfl⟩, by decide, rfl⟩, ⟨⟨rfl, rfl, rfl⟩, by decide, rfl⟩, ⟨⟨rfl, rfl, rfl⟩, by decide, rfl⟩,
    fun k hk => ?_⟩
  fin_cases hk <;> exact ⟨⟨rfl, rfl, rfl⟩, by decide, by decide, rfl⟩

theorem witness_ResetSequenceEffect :
    let s := { wst with env := [{ idleInputs with reset := true }] }
    (inputsNow s).reset = true ∧ s.ttbr < Config.coreAreaBase ∧ ∃ w, CanLoad s .word s.ttbr w :=
  ⟨rfl, by decide, _, canLoad_of rfl⟩

theorem witness_StepKeepsWellFormedState : WellFormedState wst ∧ ∃ t, step wst = .next t := ⟨wst_wf, _, rfl⟩

/-- A well-formed state after an `ext`, and one after a delayed jump. -/
theorem witness_PrefixAndSlotAreNotInterrupted :
    WellFormedState { wst with ext := .one 1, irqHold := 1, dbgHold := true } ∧
    WellFormedState { wst with delay := some ⟨0x8200, .jump⟩, irqHold := 1, dbgHold := true } := by
  constructor <;> constructor <;> decide

theorem witness_ParametersNeverChange : ∃ t, step wst = .next t := ⟨_, rfl⟩

theorem witness_LevelAndModeWriters :
    (∃ t, exec (.intlImm 5 3) wst = .next t ∧ t.psr.il ≠ wst.psr.il) ∧
    (∃ t, exec .brk wst = .next t ∧ t.dcr.dm ≠ wst.dcr.dm) ∧
    ∃ t, exec .retd (inDebug wst) = .next t ∧ t.dcr.dm ≠ (inDebug wst).dcr.dm :=
  ⟨⟨_, rfl, by decide⟩, ⟨_, rfl, by decide⟩, _, rfl, by decide⟩

theorem witness_InterruptThenReturnRestores : WellFormedState wst ∧ align4 (wst.sp - 4) < Config.coreAreaBase ∧
    (∃ t, exec (.intImm 31) wst = .next t) ∧ ∃ t, exec (.intlImm 0 7) wst = .next t :=
  ⟨wst_wf, by decide, ⟨_, rfl⟩, _, rfl⟩

theorem witness_CallThenReturnRestores : WellFormedState wst ∧ align4 (wst.sp - 4) < Config.coreAreaBase ∧
    (∃ t, exec (.callImm 0x200) wst = .next t) ∧ ∃ t, exec (.callaReg .r1) wst = .next t :=
  ⟨wst_wf, by decide, ⟨_, rfl⟩, _, rfl⟩

end Sys2Proof.Machine
end

section
/-!
PROOF of O54. The five parameters of R4 are one record that no operation writes; partial-correctness rules
for `Res` carry this through every shared operation, then through `exec` and the parts of a step.
-/

namespace Sys2Proof.Machine

/-! ### Partial correctness of results -/

/-- Whatever value a result answers satisfies `P`; a fault or a refusal answers none. -/
def Yields {α : Type} (P : α → Prop) (r : Res α) : Prop := ∀ a, r = .next a → P a

section
variable {α β : Type} {P Q : α → Prop} {R : β → Prop}

theorem Yields.next {a : α} (h : P a) : Yields P (.next a) := by
  rintro _ ⟨⟩
  exact h

theorem Yields.fault {e : Fault} : Yields P (.fault e) := by rintro _ ⟨⟩

theorem Yields.mono {r : Res α} (hr : Yields P r) (h : ∀ a, P a → Q a) : Yields Q r :=
  fun a ha => h a (hr a ha)

/-- Sequencing: what the first part yields is what the second may assume. -/
theorem Yields.bind {r : Res α} {f : α → Res β} (hr : Yields P r) (hf : ∀ a, P a → Yields R (f a)) :
    Yields R (bindRes r f) := by
  intro b h
  obtain ⟨a, ha, hb⟩ := bindRes_eq_next.mp h
  exact hf a (hr a ha) b hb

/-- Sequencing where the second part needs nothing of the value it goes on with. -/
theorem Yields.bindAny {r : Res α} {f : α → Res β} (hf : ∀ a, Yields R (f a)) : Yields R (bindRes r f) :=
  Yields.bind (P := fun _ => True) (fun _ _ => trivial) fun a _ => hf a

/-- An operation behind a check that stops with a fault. -/
theorem Yields.unlessFault {c : Prop} [Decidable c] {e : Fault} {r : Res α} (h : Yields P r) :
    Yields P (if c then .fault e else r) := by
  split
  · exact .fault
  · exact h

/-- An operation that is a fault unless a check passes. -/
theorem Yields.orFault {c : Prop} [Decidable c] {e : Fault} {r : Res α} (h : Yields P r) :
    Yields P (if c then r else .fault e) := by
  split
  · exact h
  · exact .fault

end

/-! ### The parameters -/

/-- The parameters of R4 and the chip constants TTBR and DBRAM (R34, R36). -/
structure Parameters where
  ttbr : Word
  dbram : Word
  memMap : List Region
  codeRegion : List AddrRange
  debugFw : Option Memory

/-- The parameters a state holds. -/
def State.parameters (s : State) : Parameters := ⟨s.ttbr, s.dbram, s.memMap, s.codeRegion, s.debugFw⟩

/-- The parameters of `t` are those of `s`. -/
abbrev SameParameters (s t : State) : Prop := t.parameters = s.parameters

theorem sameParameters_iff (s t : State) :
    SameParameters s t ↔
      t.ttbr = s.ttbr ∧ t.dbram = s.dbram ∧ t.memMap = s.memMap ∧ t.codeRegion = s.codeRegion ∧
        t.debugFw = s.debugFw := by
  simp [SameParameters, State.parameters]

/-! ### Memory, entries and returns -/

theorem memWrite_sameParameters (s : State) (w : Width) (a : Word) (v : BitVec 32) :
    Yields (SameParameters s) (memWrite s w a v) := by
  intro u h
  have hs := memWrite_storedAt s u w a v h
  exact (sameParameters_iff s u).mpr
    ⟨hs.ttbr, hs.dbram, hs.environment.memMap, hs.environment.codeRegion, hs.environment.debugFw⟩

theorem push_sameParameters (s : State) (v : BitVec 32) : Yields (SameParameters s) (push s v) :=
  memWrite_sameParameters (s.setSp (s.sp - 4)) _ _ _

theorem pop_sameParameters (s : State) : Yields (fun r => SameParameters s r.2) (pop s) :=
  .bindAny fun _ => .next rfl

theorem popFrame_sameParameters (s : State) : Yields (fun r => SameParameters s r.2) (popFrame s) :=
  .bind (pop_sameParameters s) fun _ h => .next h

theorem interruptEntry_sameParameters (s : State) (kind : EntryKind) (v : BitVec 5) (ret : Word) :
    Yields (SameParameters s) (interruptEntry s kind v ret) :=
  .bind (push_sameParameters s _) fun _ h => .bindAny fun _ => .next h

theorem raiseMisaligned_sameParameters (s : State) : Yields (SameParameters s) (raiseMisaligned s) :=
  .unlessFault (.unlessFault (interruptEntry_sameParameters s _ _ _))

theorem softwareInterrupt_sameParameters (s : State) (v : BitVec 5) (level : Option (BitVec 3)) :
    Yields (SameParameters s) (softwareInterrupt s v level) :=
  .unlessFault (.bind (push_sameParameters s _) fun _ h => .bindAny fun _ => .next h)

theorem debugEntry_sameParameters (s : State) (ret : Word) : Yields (SameParameters s) (debugEntry s ret) :=
  .bind (memWrite_sameParameters s _ _ _) fun s1 h1 =>
  .bind (memWrite_sameParameters s1 _ _ _) fun _ h2 => .next (h2.trans h1)

theorem debugReturn_sameParameters (s : State) : Yields (SameParameters s) (debugReturn s) :=
  .bindAny fun _ => .bindAny fun _ => .next rfl

/-- Reset changes registers and hidden state only (R433, R490). -/
theorem resetSequence_sameParameters (s : State) : Yields (SameParameters s) (resetSequence s) :=
  .bindAny fun _ => .next rfl

/-! ### Transfers, calls and the conditional forms -/

theorem endTransfer_sameParameters (t : Transfer) (ea : Word) (s : State) :
    Yields (SameParameters s) (endTransfer t ea s) := by
  unfold endTransfer
  split
  · exact raiseMisaligned_sameParameters s
  · exact .next rfl

/-- A load keeps the parameters if the update of its base register does. -/
theorem loadFrom_sameParameters {t : Transfer} {rd : Reg} {ea : Word} {upd : State → State} {s : State}
    (hupd : ∀ u, SameParameters u (upd u)) : Yields (SameParameters s) (loadFrom t rd ea upd s) :=
  .bindAny fun v => (endTransfer_sameParameters t ea _).mono fun _ h => h.trans (hupd (s.setReg rd v))

/-- A store keeps the parameters if the update of its base register does. -/
theorem storeTo_sameParameters {t : Transfer} {rs : Reg} {ea : Word} {upd : State → State} {s : State}
    (hupd : ∀ u, SameParameters u (upd u)) : Yields (SameParameters s) (storeTo t rs ea upd s) :=
  .bind (memWrite_sameParameters s _ _ _) fun u hu =>
  (endTransfer_sameParameters t ea _).mono fun _ h => (h.trans (hupd u)).trans hu

theorem callTo_sameParameters (target : Word) (s : State) : Yields (SameParameters s) (callTo target s) :=
  .bind (push_sameParameters s _) fun _ h => .next h

theorem callToDelayed_sameParameters (target : Word) (s : State) :
    Yields (SameParameters s) (callToDelayed target s) :=
  .bind (push_sameParameters s _) fun _ h => .next h

theorem onCarry_sameParameters {want : Bool} {run : State → State} {s : State}
    (h : SameParameters s (run s)) : SameParameters s (onCarry want run s) := by
  unfold onCarry
  split
  · exact h
  · rfl

theorem condJump_sameParameters (c : Cond) (sign7 : BitVec 7) (s : State) :
    SameParameters s (condJump c sign7 s) := by
  unfold condJump
  split <;> rfl

theorem shiftReg_sameParameters (kind : ShiftKind) (rd : Reg) (x : Nat) (s : State) :
    SameParameters s (shiftReg kind rd x s) := by
  unfold shiftReg
  dsimp only
  split <;> rfl

theorem execLdaRdPc_sameParameters (rd : Reg) (s : State) : Yields (SameParameters s) (execLdaRdPc rd s) := by
  unfold execLdaRdPc
  split
  · exact .next rfl
  · exact .fault
  · exact .fault

/-! ### Instructions and steps -/

/-- No instruction changes the parameters. The arms are grouped by the shared operation they end in. -/
theorem exec_sameParameters (i : Instr) (s : State) : Yields (SameParameters s) (exec i s) := by
  cases i with
  -- loads and stores that keep their base
  | ldbLoadInd | ldubLoadInd | ldLoadInd | ldaLoadInd
  | ldbLoadAbs | ldubLoadAbs | ldLoadAbs | ldaLoadAbs
  | ldbLoadSpDisp | ldubLoadSpDisp | ldLoadSpDisp | ldaLoadSpDisp | ldaLoadSp =>
    exact loadFrom_sameParameters fun _ => rfl
  | ldaLoadSpPreDec => exact loadFrom_sameParameters (upd := fun u => u.setSp (s.sp - spStep s)) fun _ => rfl
  | ldbStoreInd | ldStoreInd | ldaStoreInd | ldbStoreAbs | ldStoreAbs | ldaStoreAbs
  | ldbStoreSpDisp | ldStoreSpDisp | ldaStoreSpDisp | ldaStoreSp | ldaStoreSpPreDec
  | ldbStorePostInc | ldStorePostInc | ldaStorePostInc
  | ldbStorePostDec | ldStorePostDec | ldaStorePostDec =>
    exact storeTo_sameParameters fun _ => rfl
  -- modifying forms with a fault of R162 or of D44
  | ldbLoadPostInc | ldubLoadPostInc | ldLoadPostInc | ldaLoadPostInc
  | ldbLoadPostDec | ldubLoadPostDec | ldLoadPostDec | ldaLoadPostDec
  | ldbLoadPreDec | ldubLoadPreDec | ldLoadPreDec | ldaLoadPreDec
  | ldaLoadSpPostInc | ldaLoadSpPostDec =>
    exact .unlessFault (loadFrom_sameParameters fun _ => rfl)
  | ldbStorePreDec | ldStorePreDec | ldaStorePreDec | ldaStoreSpPostInc | ldaStoreSpPostDec =>
    exact .unlessFault (storeTo_sameParameters fun _ => rfl)
  -- results written to registers, PSR, SP and hidden state
  | ldbRR | ldubRR | ldRR | ldaRR | ldaImm | ldaSpImm | ldaRdSp | ldaSpRs
  | cvla | cvab | cvls | cvas | cval | swap
  | andRR | orRR | xorRR | notRR
  | addRR | adcRR | subRR | sbcRR | cmpRR | cmcRR
  | addaRR | addaImm | addaSpRs | addaSpImm | subaRR | subaImm | subaSpRs | subaSpImm | cmpaRR | cmpaImm
  | ldcwRR | ldcwImm | ldcaRR | ldcaImm | ldcfRR | ldcfImm
  | ext | nop | halt | slp | ei | di
  | jprReg | jprDelayedReg | jpaImm | jpaDelayedImm | jpaReg | jpaDelayedReg
  | jrgtDelayed | jrgeDelayed | jrltDelayed | jrleDelayed | jrugtDelayed | jrugeDelayed | jrultDelayed
  | jruleDelayed | jreqDelayed | jrneDelayed =>
    exact .next rfl
  -- immediates that two `ext` make a fault
  | andImm | orImm | xorImm | notImm | addImm | adcImm | subImm | sbcImm | cmpImm | cmcImm | ldImm
  | jprImm | jprDelayedImm =>
    exact .bindAny fun _ => .next rfl
  | andC | andNC | orC | orNC | xorC | xorNC | notC | notNC
  | addC | addNC | adcC | adcNC | subC | subNC | sbcC | sbcNC | cmpC | cmpNC | cmcC | cmcNC
  | addaC | addaNC | subaC | subaNC | cmpaC | cmpaNC =>
    exact .next (onCarry_sameParameters rfl)
  | srRR | srImm | saRR | saImm | slRR | slImm => exact .next (shiftReg_sameParameters _ _ _ s)
  | jrgt | jrge | jrlt | jrle | jrugt | jruge | jrult | jrule | jreq | jrne =>
    exact .next (condJump_sameParameters _ _ s)
  | ldaRdPc rd => exact execLdaRdPc_sameParameters rd s
  -- calls, returns, software interrupts and the debug instructions
  | callImm => exact .bindAny fun _ => callTo_sameParameters _ s
  | callDelayedImm => exact .bindAny fun _ => callToDelayed_sameParameters _ s
  | callReg | callaImm | callaReg => exact callTo_sameParameters _ s
  | callDelayedReg | callaDelayedImm | callaDelayedReg => exact callToDelayed_sameParameters _ s
  | ret | retDelayed => exact .bind (pop_sameParameters s) fun _ h => .next h
  | reti | retiDelayed => exact .bind (popFrame_sameParameters s) fun _ h => .next h
  | intImm | intlImm => exact softwareInterrupt_sameParameters s _ _
  | brk => exact .unlessFault (.bind (debugEntry_sameParameters s _) fun _ h => .next h)
  | retd => exact .orFault (debugReturn_sameParameters s)

theorem runInstr_sameParameters (i : Instr) (s : State) : Yields (SameParameters s) (runInstr i s) := by
  unfold runInstr
  split
  · exact exec_sameParameters i s
  · exact .orFault (.bind (exec_sameParameters i (enterSlot s)) fun _ h => .next h)

theorem runNext_sameParameters (s : State) : Yields (SameParameters s) (runNext s) :=
  .bindAny fun i => .bind (runInstr_sameParameters i s) fun _ h => .next h

theorem acceptRequest_sameParameters (r : Request) (s : State) :
    Yields (SameParameters s) (acceptRequest r s) := by
  cases r with
  | debug => exact debugEntry_sameParameters s _
  | nmi | maskable => exact interruptEntry_sameParameters s _ _ _

theorem boundary_sameParameters (inp : Inputs) (s : State) : Yields (SameParameters s) (boundary inp s) := by
  have hsel : SameParameters s (selectRequest inp s).2 := rfl
  unfold boundary
  split
  · rename_i r s1 heq
    rw [heq] at hsel
    exact (acceptRequest_sameParameters r s1).mono fun _ h => h.trans hsel
  · rename_i s1 heq
    rw [heq] at hsel
    exact (runNext_sameParameters s1).mono fun _ h => h.trans hsel

theorem step_sameParameters (s : State) : Yields (SameParameters s) (step s) := by
  unfold step cycle
  dsimp only
  split
  · exact resetSequence_sameParameters (consumeInputs s)
  · split
    · exact boundary_sameParameters _ (applyInputs _ (consumeInputs s))
    · exact .next rfl

/-- Settles O54: TTBR, DBRAM, the memory map, the code region and the debug firmware are constants of a run. -/
theorem parametersNeverChange : Obligations.ParametersNeverChange := by
  intro s t h
  exact (sameParameters_iff s t).mp (step_sameParameters s t h)

end Sys2Proof.Machine
end

section
/-!
PROOF of O50, O51, O52 and O55. What completing an instruction does to the invariant, to the pending `ext` and
delayed branch, to IL and to DM is one predicate, `CompletesWith`: every shared operation is shown to yield it once,
`exec_effect` collects the instructions, and the two statements about all instructions are read off it.
-/

namespace Sys2Proof.Machine

/-! ### The state after reset -/

/-- Settles O50: each value of R50 is that of the definition, PC by the law about the reset vector. -/
theorem resetStateValues : Obligations.ResetStateValues := by
  obtain ⟨hvector, hpc⟩ := Laws.reset_pc_is_the_reset_vector
  have hregs : ∀ r, State.reset.reg r = 0x000000 := by intro r; cases r <;> rfl
  exact ⟨hregs, rfl, rfl, ⟨0, hvector, hpc⟩, rfl, rfl, rfl, rfl, rfl, rfl, rfl, rfl, rfl, rfl, rfl, rfl, rfl, rfl,
    rfl⟩

/-- Settles O51: nothing is pending, and every fixed bit and range is met by the values of R50. -/
theorem resetIsWellFormed : Obligations.ResetIsWellFormed := by
  unfold Obligations.ResetIsWellFormed
  exact {
    memory := reset_memory_wf
    pcEven := rfl
    spAligned := rfl
    ibar0Even := rfl
    ibar1Even := rfl
    ttbrRange := by decide
    dbramRange := by decide
    irqHoldRange := by decide
    ieLagRange := by decide
    ieSettled := fun _ => rfl
    extHeld := fun h => absurd rfl h
    slotHeld := fun h => absurd rfl h
    slotWithoutExt := fun h => absurd rfl h }

/-! ### The invariant in parts -/

/-- The part of `WellFormedState` that holds in the middle of an instruction too: fixed bits, ranges and the
canonical memory. -/
structure Sound (s : State) : Prop where
  memory : s.mem.wf = true
  pcEven : even s.pc = s.pc
  spAligned : align4 s.sp = s.sp
  ibar0Even : even s.ibar0 = s.ibar0
  ibar1Even : even s.ibar1 = s.ibar1
  irqHoldRange : s.irqHold ≤ 2
  ieLagRange : s.ieLag ≤ 3
  ieSettled : s.ieLag = 0 → s.ieEffective = s.psr.ie

/-- Every request but reset is held at the next boundary (R450). -/
def RequestsHeld (s : State) : Prop := 1 ≤ s.irqHold ∧ s.dbgHold = true

/-- `WellFormedState` without the parameters, which no step changes: between two steps a pending `ext` or delayed
branch is held, and the two are not pending together. -/
structure Settled (s : State) : Prop extends Sound s where
  held : s.ext ≠ .none ∨ s.delay ≠ none → RequestsHeld s
  slot : s.delay ≠ none → s.ext = .none

theorem WellFormedState.settled {s : State} (h : WellFormedState s) : Settled s where
  memory := h.memory
  pcEven := h.pcEven
  spAligned := h.spAligned
  ibar0Even := h.ibar0Even
  ibar1Even := h.ibar1Even
  irqHoldRange := h.irqHoldRange
  ieLagRange := h.ieLagRange
  ieSettled := h.ieSettled
  held := fun hp => hp.elim h.extHeld h.slotHeld
  slot := h.slotWithoutExt

/-- A settled state with the parameters of a well-formed one is well formed. -/
theorem WellFormedState.of_settled {s t : State} (h : WellFormedState s) (hp : SameParameters s t)
    (ht : Settled t) : WellFormedState t := by
  obtain ⟨httbr, hdbram, -⟩ := (sameParameters_iff s t).mp hp
  exact {
    memory := ht.memory
    pcEven := ht.pcEven
    spAligned := ht.spAligned
    ibar0Even := ht.ibar0Even
    ibar1Even := ht.ibar1Even
    ttbrRange := httbr ▸ h.ttbrRange
    dbramRange := hdbram ▸ h.dbramRange
    irqHoldRange := ht.irqHoldRange
    ieLagRange := ht.ieLagRange
    ieSettled := ht.ieSettled
    extHeld := fun hext => ht.held (.inl hext)
    slotHeld := fun hdelay => ht.held (.inr hdelay)
    slotWithoutExt := ht.slot }

/-- With nothing pending there is nothing to hold. -/
theorem Sound.settled {t : State} (h : Sound t) (hext : t.ext = .none) (hdelay : t.delay = none) : Settled t where
  toSound := h
  held := fun hp => hp.elim (fun hne => absurd hext hne) (fun hne => absurd hdelay hne)
  slot := fun _ => hext

theorem even_add_two {a : Word} (h : even a = a) : even (a + 2) = a + 2 := by
  rw [even_iff] at h ⊢
  bv_omega

theorem le_two_of_hold {n : Nat} (h : n ≤ 2) : max n 1 ≤ 2 := max_le h (by decide)

/-! ### In the middle of an instruction -/

/-- `u` is `s` after a part of an instruction's work that does not end it: the invariant, the delayed branch, IL
and DM are kept. -/
structure Works (s u : State) : Prop where
  sound : Sound s → Sound u
  delay : u.delay = s.delay
  level : u.psr.il = s.psr.il
  mode : u.dcr.dm = s.dcr.dm

theorem Works.refl (s : State) : Works s s := ⟨id, rfl, rfl, rfl⟩

theorem Works.trans {s u v : State} (h : Works s u) (h' : Works u v) : Works s v :=
  ⟨h'.sound ∘ h.sound, h'.delay.trans h.delay, h'.level.trans h.level, h'.mode.trans h.mode⟩

theorem setReg_works (s : State) (r : Reg) (v : Word) : Works s (s.setReg r v) :=
  ⟨fun h => { h with }, rfl, rfl, rfl⟩

theorem setSp_works (s : State) (v : Word) : Works s (s.setSp v) :=
  ⟨fun h => { h with spAligned := align4_align4 v }, rfl, rfl, rfl⟩

theorem holdIrq_works (s : State) : Works s (holdIrq s) :=
  ⟨fun h => { h with irqHoldRange := le_two_of_hold h.irqHoldRange }, rfl, rfl, rfl⟩

/-- A store keeps the memory canonical and bit 0 of the break addresses, and cannot write DM (R37, R38, R60). -/
theorem memWrite_works (s : State) (w : Width) (a : Word) (v : BitVec 32) :
    Yields (Works s) (memWrite s w a v) := by
  intro u h
  have hwf : s.mem.wf = true → u.mem.wf = true := memWrite_wf s u w a v h
  obtain ⟨m, d, i0, i1, r, b, rfl, hmode, hi0, hi1, -⟩ := memWrite_frame s u w a v h
  refine ⟨fun hs => ?_, rfl, rfl, hmode⟩
  exact { hs with
    memory := hwf hs.memory
    ibar0Even := hi0.elim (fun heq => heq ▸ hs.ibar0Even) id
    ibar1Even := hi1.elim (fun heq => heq ▸ hs.ibar1Even) id }

theorem push_works (s : State) (v : BitVec 32) : Yields (Works s) (push s v) :=
  (memWrite_works (s.setSp (s.sp - 4)) _ _ _).mono fun _ h => (setSp_works s _).trans h

theorem pop_works (s : State) : Yields (fun r => Works s r.2) (pop s) :=
  .bindAny fun _ => .next (setSp_works s _)

/-- An address read from the vector table can be put into PC (R436). -/
theorem vectorRead_even (s : State) (v : BitVec 5) : Yields (fun a => even a = a) (vectorRead s v) := by
  intro a h
  obtain ⟨w, -, rfl⟩ := (vectorRead_next s v a).mp h
  exact even_even _

/-! ### How an instruction completes -/

/-- What an instruction that ran in `s` leaves pending in `t`. -/
inductive Ending (s t : State) : Prop
  /-- Nothing new: the `ext` is used up. -/
  | plain (hext : t.ext = .none) (hdelay : t.delay = s.delay)
  /-- An entry, which drops what was pending (R440, R460). -/
  | entry (hext : t.ext = .none) (hdelay : t.delay = none)
  /-- A delayed branch whose slot is next (R342). -/
  | branch (hext : t.ext = .none) (hheld : RequestsHeld t)
  /-- An `ext` whose target is next (R150). -/
  | extension (hheld : RequestsHeld t) (hdelay : t.delay = s.delay)

/-- An instruction that ran in `s` completes in `t` with the given IL and DM. -/
structure CompletesWith (s : State) (il : BitVec 3) (dm : Bool) (t : State) : Prop where
  sound : Sound s → Sound t
  ending : Ending s t
  level : t.psr.il = il
  mode : t.dcr.dm = dm

/-- An instruction that writes neither IL nor DM completes. -/
abbrev Ordinary (s : State) : State → Prop := CompletesWith s s.psr.il s.dcr.dm

theorem Works.advance {s u : State} (h : Works s u) : Ordinary s (advance u) :=
  ⟨fun hs => { h.sound hs with pcEven := even_add_two (h.sound hs).pcEven }, .plain rfl h.delay, h.level, h.mode⟩

theorem Works.jumpTo {s u : State} (h : Works s u) (target : Word) : Ordinary s (jumpTo u target) :=
  ⟨fun hs => { h.sound hs with pcEven := even_even target }, .plain rfl h.delay, h.level, h.mode⟩

theorem requestsHeld_delayedBranch (s : State) (kind : DelayKind) (taken : Bool) (target : Word) :
    RequestsHeld (delayedBranch s kind taken target) := ⟨le_max_right _ _, rfl⟩

theorem Works.delayedBranch {s u : State} (h : Works s u) (kind : DelayKind) (taken : Bool) (target : Word) :
    Ordinary s (delayedBranch u kind taken target) where
  sound := fun hs => { h.sound hs with
    pcEven := even_add_two (h.sound hs).pcEven
    irqHoldRange := le_two_of_hold (h.sound hs).irqHoldRange }
  ending := .branch rfl (requestsHeld_delayedBranch u kind taken target)
  level := h.level
  mode := h.mode

/-- A result: registers, SP, flags, the NMI mask, the coprocessor and the draw counter may change, and PC goes to
the next code. -/
theorem result_ordinary {s : State} {regs : Regs} {sp : Word} {p : Psr} {armed : Bool} {calls : List CoproCall}
    {draws : Nat} (hil : p.il = s.psr.il) (hie : p.ie = s.psr.ie) (hsp : sp = s.sp ∨ align4 sp = sp) :
    Ordinary s { s with
      regs := regs, sp := sp, psr := p, nmiArmed := armed, copro := calls, freeCount := draws
      pc := s.pc + 2, ext := .none } where
  sound := fun h => { h with
    pcEven := even_add_two h.pcEven
    spAligned := hsp.elim (fun heq => heq ▸ h.spAligned) id
    ieSettled := fun hlag => (h.ieSettled hlag).trans hie.symm }
  ending := .plain rfl rfl
  level := hil
  mode := rfl

theorem onCarry_ordinary {want : Bool} {run : State → State} {s : State} (h : Ordinary s (run s)) :
    Ordinary s (onCarry want run s) := by
  unfold onCarry
  split
  · exact h
  · exact (Works.refl s).advance

theorem shiftReg_ordinary (kind : ShiftKind) (rd : Reg) (x : Nat) (s : State) :
    Ordinary s (shiftReg kind rd x s) := by
  unfold shiftReg
  dsimp only
  split
  · exact result_ordinary rfl rfl (.inl rfl)
  · exact result_ordinary rfl rfl (.inl rfl)

theorem condJump_ordinary (c : Cond) (sign7 : BitVec 7) (s : State) : Ordinary s (condJump c sign7 s) := by
  unfold condJump
  split
  · exact (Works.refl s).jumpTo _
  · exact (holdIrq_works s).advance

theorem execLdaRdPc_ordinary (rd : Reg) (s : State) : Yields (Ordinary s) (execLdaRdPc rd s) := by
  unfold execLdaRdPc
  split
  · exact .next (setReg_works s rd _).advance
  · exact .fault
  · exact .fault

/-- `halt` and `slp` settle `ie_effective` at once (R503 item 3). -/
theorem powerDown_ordinary (mode : RunState) (s : State) : Ordinary s (powerDown mode s) :=
  have h := (holdIrq_works s).advance
  ⟨fun hs => { h.sound hs with ieLagRange := Nat.zero_le _, ieSettled := fun _ => rfl }, .plain rfl rfl, rfl, rfl⟩

/-- `ei` and `di` leave a lag of 1, 2 or 3, so IE need not have settled (R503). -/
theorem setIe_ordinary (value : Bool) (s : State) : Ordinary s (setIe value s) :=
  have h := (holdIrq_works s).advance
  have hlag : (setIe value s).ieLag = 1 + (Config.freeLag s.freeCount).val := rfl
  ⟨fun hs => { h.sound hs with
      ieLagRange := by have := (Config.freeLag s.freeCount).isLt; omega
      ieSettled := fun h0 => by omega },
    .plain rfl rfl, rfl, rfl⟩

/-- An `ext` stays pending with every request held (R150, R450 interval 1). -/
theorem execExt_ordinary (imm13 : BitVec 13) (s : State) : Yields (Ordinary s) (execExt imm13 s) :=
  have h := (holdIrq_works s).advance
  .next ⟨fun hs => { h.sound hs with }, .extension ⟨le_max_right _ _, rfl⟩ rfl, rfl, rfl⟩

/-! ### Entries and returns -/

/-- Clearing IE settles it (R440). -/
theorem Sound.clearIe {s : State} (h : Sound s) : Sound (clearIe s) :=
  { h with ieLagRange := Nat.zero_le _, ieSettled := fun _ => rfl }

theorem Ending.clearIe {s t : State} : Ending s t → Ending s (clearIe t)
  | .plain hext hdelay => .plain hext hdelay
  | .entry hext hdelay => .entry hext hdelay
  | .branch hext hheld => .branch hext hheld
  | .extension hheld hdelay => .extension hheld hdelay

/-- What is left pending after a part of an instruction's work counts from the instruction's beginning. -/
theorem Works.ending {s u t : State} (h : Works s u) : Ending u t → Ending s t
  | .plain hext hdelay => .plain hext (hdelay.trans h.delay)
  | .entry hext hdelay => .entry hext hdelay
  | .branch hext hheld => .branch hext hheld
  | .extension hheld hdelay => .extension hheld (hdelay.trans h.delay)

/-- An entry sets IL as R440 step 3 says and leaves the mode. -/
theorem interruptEntry_completes (s : State) (kind : EntryKind) (v : BitVec 5) (ret : Word) :
    Yields (CompletesWith s (kind.levelAfter s.psr.il) s.dcr.dm) (interruptEntry s kind v ret) :=
  .bind (push_works s _) fun _ hu => .bind (vectorRead_even _ v) fun _ ha => .next
    ⟨fun hs => { (hu.sound hs).clearIe with pcEven := ha }, .entry rfl rfl,
      congrArg kind.levelAfter hu.level, hu.mode⟩

theorem raiseMisaligned_ordinary (s : State) : Yields (Ordinary s) (raiseMisaligned s) :=
  .unlessFault (.unlessFault (interruptEntry_completes s .misaligned _ _))

/-- `int` leaves IL and `intl` sets it (R385, R386). -/
theorem softwareInterrupt_completes (s : State) (v : BitVec 5) (level : Option (BitVec 3)) :
    Yields (CompletesWith s (level.getD s.psr.il) s.dcr.dm) (softwareInterrupt s v level) :=
  .unlessFault <| .bind (push_works s _) fun _ hu => .bindAny fun a => .next
    ⟨fun hs => { (hu.sound hs).clearIe with
        pcEven := even_even a, irqHoldRange := le_two_of_hold (hu.sound hs).irqHoldRange },
      .plain rfl hu.delay, congrArg level.getD hu.level, hu.mode⟩

theorem even_debugEntryAddress : even Config.debugEntryAddress = Config.debugEntryAddress := by decide

/-- A debug entry sets DM and leaves IL (R460). -/
theorem debugEntry_completes (s : State) (ret : Word) :
    Yields (CompletesWith s s.psr.il true) (debugEntry s ret) :=
  .bind (memWrite_works s _ _ _) fun u hu => .bind (memWrite_works u _ _ _) fun _ hv =>
  have h := hu.trans hv
  .next ⟨fun hs => { h.sound hs with pcEven := even_debugEntryAddress }, .entry rfl rfl, h.level, rfl⟩

/-- `brk` is a debug entry that clears IE too (R387). -/
theorem execBrk_completes (s : State) : Yields (CompletesWith s s.psr.il true) (execBrk s) :=
  .unlessFault <| .bind (debugEntry_completes s _) fun _ h => .next
    ⟨fun hs => (h.sound hs).clearIe, h.ending.clearIe, h.level, h.mode⟩

/-- `retd` restores PSR, settles IE, leaves debug mode and holds the next boundary (R388, R462). -/
theorem debugReturn_completes (s : State) :
    Yields (fun t => ∃ il, CompletesWith s il false t) (debugReturn s) :=
  .bindAny fun _ => .bindAny fun w => .next
    ⟨(Psr.ofByte (topByte w)).il,
      fun hs => { hs with
        pcEven := even_even _
        irqHoldRange := le_two_of_hold hs.irqHoldRange
        ieLagRange := Nat.zero_le _
        ieSettled := fun _ => rfl },
      .plain rfl rfl, rfl, rfl⟩

/-- `t` is `s` after a part of a return's work, which has restored PSR: any IL, and IE settled (R383). -/
structure Restores (s t : State) : Prop where
  sound : Sound s → Sound t
  delay : t.delay = s.delay
  mode : t.dcr.dm = s.dcr.dm

theorem popFrame_restores (s : State) : Yields (fun r => Restores s r.2) (popFrame s) :=
  .bind (pop_works s) fun _ h => .next
    ⟨fun hs => { h.sound hs with ieLagRange := Nat.zero_le _, ieSettled := fun _ => rfl }, h.delay, h.mode⟩

theorem execReti_completes (s : State) :
    Yields (fun t => ∃ il, CompletesWith s il s.dcr.dm t) (execReti s) :=
  .bind (popFrame_restores s) fun r h => .next
    ⟨r.2.psr.il,
      fun hs => { h.sound hs with
        pcEven := even_even r.1, irqHoldRange := le_two_of_hold (h.sound hs).irqHoldRange },
      .plain rfl h.delay, rfl, h.mode⟩

/-- `reti.d` holds two boundaries (R384). -/
theorem execRetiDelayed_completes (s : State) :
    Yields (fun t => ∃ il, CompletesWith s il s.dcr.dm t) (execRetiDelayed s) :=
  .bind (popFrame_restores s) fun r h => .next
    ⟨r.2.psr.il,
      fun hs => { h.sound hs with
        pcEven := even_add_two (h.sound hs).pcEven, irqHoldRange := le_refl 2 },
      .branch rfl ⟨one_le_two, rfl⟩, rfl, h.mode⟩

/-! ### Transfers and calls -/

/-- A transfer ends by advancing or by the address-misaligned interrupt, which keeps IL and DM (R443). -/
theorem Works.endTransfer {s u : State} (h : Works s u) (t : Transfer) (ea : Word) :
    Yields (Ordinary s) (endTransfer t ea u) := by
  intro r hr
  obtain rfl | ⟨-, -, hentry⟩ := endTransfer_next t ea u r hr
  · exact h.advance
  · have he := interruptEntry_completes u .misaligned 1 u.pc r hentry
    exact ⟨he.sound ∘ h.sound, h.ending he.ending, he.level.trans h.level, he.mode.trans h.mode⟩

/-- A load is ordinary if the update of its base register is no more than a part of its work. -/
theorem loadFrom_ordinary {t : Transfer} {rd : Reg} {ea : Word} {upd : State → State} {s : State}
    (hupd : ∀ u, Works u (upd u)) : Yields (Ordinary s) (loadFrom t rd ea upd s) :=
  .bindAny fun v => ((setReg_works s rd v).trans (hupd _)).endTransfer t ea

/-- A store is ordinary if the update of its base register is no more than a part of its work. -/
theorem storeTo_ordinary {t : Transfer} {rs : Reg} {ea : Word} {upd : State → State} {s : State}
    (hupd : ∀ u, Works u (upd u)) : Yields (Ordinary s) (storeTo t rs ea upd s) :=
  .bind (memWrite_works s _ _ _) fun u hu => (hu.trans (hupd u)).endTransfer t ea

theorem callTo_ordinary (target : Word) (s : State) : Yields (Ordinary s) (callTo target s) :=
  .bind (push_works s _) fun _ h => .next (h.jumpTo target)

theorem callToDelayed_ordinary (target : Word) (s : State) : Yields (Ordinary s) (callToDelayed target s) :=
  .bind (push_works s _) fun _ h => .next (h.delayedBranch _ _ target)

/-! ### All instructions -/

/-- The values of IL and DM an instruction may leave, by the writers that R26 and R37 name. -/
inductive Writes (s : State) : Instr → BitVec 3 → Bool → Prop
  | neither (i : Instr) : Writes s i s.psr.il s.dcr.dm
  | intl (v : BitVec 5) (l : BitVec 3) : Writes s (.intlImm v l) l s.dcr.dm
  | reti (il : BitVec 3) : Writes s .reti il s.dcr.dm
  | retiDelayed (il : BitVec 3) : Writes s .retiDelayed il s.dcr.dm
  | brk : Writes s .brk s.psr.il true
  | retd (il : BitVec 3) : Writes s .retd il false

/-- `i` completes from `s` in `t`, with IL and DM it may write. -/
def Effect (i : Instr) (s t : State) : Prop := ∃ il dm, Writes s i il dm ∧ CompletesWith s il dm t

theorem Yields.ordinary {i : Instr} {s : State} {r : Res State} (h : Yields (Ordinary s) r) :
    Yields (Effect i s) r :=
  h.mono fun _ ht => ⟨_, _, .neither i, ht⟩

/-- Every instruction that completes keeps the invariant and writes IL and DM only as its rule says. The arms are
grouped by the shared operation they end in. -/
theorem exec_effect (i : Instr) (s : State) : Yields (Effect i s) (exec i s) := by
  cases i with
  -- loads and stores that keep their base
  | ldbLoadInd | ldubLoadInd | ldLoadInd | ldaLoadInd
  | ldbLoadSpDisp | ldubLoadSpDisp | ldLoadSpDisp | ldaLoadSpDisp
  | ldbLoadAbs | ldubLoadAbs | ldLoadAbs | ldaLoadAbs | ldaLoadSp =>
    exact .ordinary (loadFrom_ordinary Works.refl)
  | ldbStoreInd | ldStoreInd | ldaStoreInd | ldbStoreSpDisp | ldStoreSpDisp | ldaStoreSpDisp
  | ldbStoreAbs | ldStoreAbs | ldaStoreAbs | ldaStoreSp =>
    exact .ordinary (storeTo_ordinary Works.refl)
  -- modifying forms, some with a fault of R162 or of D44
  | ldbLoadPostInc | ldubLoadPostInc | ldLoadPostInc | ldaLoadPostInc
  | ldbLoadPostDec | ldubLoadPostDec | ldLoadPostDec | ldaLoadPostDec
  | ldbLoadPreDec | ldubLoadPreDec | ldLoadPreDec | ldaLoadPreDec =>
    exact .ordinary (.unlessFault (loadFrom_ordinary fun u => setReg_works u _ _))
  | ldbStorePostInc | ldStorePostInc | ldaStorePostInc
  | ldbStorePostDec | ldStorePostDec | ldaStorePostDec =>
    exact .ordinary (storeTo_ordinary fun u => setReg_works u _ _)
  | ldbStorePreDec | ldStorePreDec | ldaStorePreDec =>
    exact .ordinary (.unlessFault (storeTo_ordinary fun u => setReg_works u _ _))
  | ldaLoadSpPostInc | ldaLoadSpPostDec =>
    exact .ordinary (.unlessFault (loadFrom_ordinary fun u => setSp_works u _))
  | ldaLoadSpPreDec => exact .ordinary (loadFrom_ordinary fun u => setSp_works u _)
  | ldaStoreSpPostInc | ldaStoreSpPostDec =>
    exact .ordinary (.unlessFault (storeTo_ordinary fun u => setSp_works u _))
  | ldaStoreSpPreDec => exact .ordinary (storeTo_ordinary fun u => setSp_works u _)
  -- results in registers and PSR, and results in SP
  | ldbRR | ldubRR | ldRR | ldaRR | ldaImm | ldaRdSp | cvla | cvab | cvls | cvas | cval | swap | nop
  | andRR | orRR | xorRR | notRR | addRR | adcRR | subRR | sbcRR | cmpRR | cmcRR
  | addaRR | addaImm | subaRR | subaImm | cmpaRR | cmpaImm
  | ldcwRR | ldcwImm | ldcaRR | ldcaImm | ldcfRR | ldcfImm =>
    exact .ordinary (.next (result_ordinary rfl rfl (.inl rfl)))
  | addaSpRs | addaSpImm | subaSpRs | subaSpImm | ldaSpImm | ldaSpRs =>
    exact .ordinary (.next (result_ordinary rfl rfl (.inr (align4_align4 _))))
  -- immediates that two `ext` make a fault
  | andImm | orImm | xorImm | notImm | addImm | adcImm | subImm | sbcImm | cmpImm | cmcImm | ldImm =>
    exact .ordinary (.bindAny fun _ => .next (result_ordinary rfl rfl (.inl rfl)))
  | andC | andNC | orC | orNC | xorC | xorNC | notC | notNC
  | addC | addNC | adcC | adcNC | subC | subNC | sbcC | sbcNC | cmpC | cmpNC | cmcC | cmcNC
  | addaC | addaNC | subaC | subaNC | cmpaC | cmpaNC =>
    exact .ordinary (.next (onCarry_ordinary (result_ordinary rfl rfl (.inl rfl))))
  | srRR | srImm | saRR | saImm | slRR | slImm => exact .ordinary (.next (shiftReg_ordinary _ _ _ s))
  | ldaRdPc rd => exact .ordinary (execLdaRdPc_ordinary rd s)
  -- system control
  | ext imm13 => exact .ordinary (execExt_ordinary imm13 s)
  | halt | slp => exact .ordinary (.next (powerDown_ordinary _ s))
  | ei | di => exact .ordinary (.next (setIe_ordinary _ s))
  -- jumps and calls
  | jprImm => exact .ordinary (.bindAny fun _ => .next ((Works.refl s).jumpTo _))
  | jprReg | jpaImm | jpaReg => exact .ordinary (.next ((Works.refl s).jumpTo _))
  | jprDelayedImm => exact .ordinary (.bindAny fun _ => .next ((Works.refl s).delayedBranch _ _ _))
  | jprDelayedReg | jpaDelayedImm | jpaDelayedReg
  | jrgtDelayed | jrgeDelayed | jrltDelayed | jrleDelayed | jrugtDelayed | jrugeDelayed | jrultDelayed
  | jruleDelayed | jreqDelayed | jrneDelayed =>
    exact .ordinary (.next ((Works.refl s).delayedBranch _ _ _))
  | jrgt | jrge | jrlt | jrle | jrugt | jruge | jrult | jrule | jreq | jrne =>
    exact .ordinary (.next (condJump_ordinary _ _ s))
  | callImm => exact .ordinary (.bindAny fun _ => callTo_ordinary _ s)
  | callDelayedImm => exact .ordinary (.bindAny fun _ => callToDelayed_ordinary _ s)
  | callReg | callaImm | callaReg => exact .ordinary (callTo_ordinary _ s)
  | callDelayedReg | callaDelayedImm | callaDelayedReg => exact .ordinary (callToDelayed_ordinary _ s)
  -- returns, software interrupts and the debug instructions
  | ret => exact .ordinary (.bind (pop_works s) fun _ h => .next (h.jumpTo _))
  | retDelayed => exact .ordinary (.bind (pop_works s) fun _ h => .next (h.delayedBranch _ _ _))
  | intImm v => exact .ordinary (softwareInterrupt_completes s v none)
  | intlImm v l => exact (softwareInterrupt_completes s v (some l)).mono fun _ h => ⟨_, _, .intl v l, h⟩
  | reti => exact (execReti_completes s).mono fun _ ⟨il, h⟩ => ⟨_, _, .reti il, h⟩
  | retiDelayed => exact (execRetiDelayed_completes s).mono fun _ ⟨il, h⟩ => ⟨_, _, .retiDelayed il, h⟩
  | brk => exact (execBrk_completes s).mono fun _ h => ⟨_, _, .brk, h⟩
  | retd => exact .orFault ((debugReturn_completes s).mono fun _ ⟨il, h⟩ => ⟨_, _, .retd il, h⟩)

/-- The writers of R26: who leaves an IL other than the one before. -/
theorem Writes.level {s : State} {i : Instr} {il : BitVec 3} {dm : Bool} (h : Writes s i il dm)
    (hne : il ≠ s.psr.il) : (∃ v l, i = .intlImm v l) ∨ i = .reti ∨ i = .retiDelayed ∨ i = .retd := by
  cases h with
  | neither | brk => exact absurd rfl hne
  | intl v => exact .inl ⟨v, il, rfl⟩
  | reti => exact .inr (.inl rfl)
  | retiDelayed => exact .inr (.inr (.inl rfl))
  | retd => exact .inr (.inr (.inr rfl))

/-- The writers of R37: who leaves a DM other than the one before. -/
theorem Writes.mode {s : State} {i : Instr} {il : BitVec 3} {dm : Bool} (h : Writes s i il dm)
    (hne : dm ≠ s.dcr.dm) : i = .brk ∧ dm = true ∨ i = .retd ∧ dm = false := by
  cases h with
  | neither | intl | reti | retiDelayed => exact absurd rfl hne
  | brk => exact .inl ⟨rfl, rfl⟩
  | retd => exact .inr ⟨rfl, rfl⟩

/-- Settles O55: IL and DM of the next state are values of `Writes`. -/
theorem levelAndModeWriters : Obligations.LevelAndModeWriters := by
  intro i s t h
  obtain ⟨il, dm, hw, hc⟩ := exec_effect i s t h
  rw [hc.level, hc.mode]
  exact ⟨hw.level, hw.mode⟩

/-! ### The parts of a step -/

/-- An instruction that runs outside a slot leaves what it left pending held. -/
theorem Ending.settled {s t : State} (h : Ending s t) (hsound : Sound t) (hdelay : s.delay = none) :
    Settled t := by
  cases h with
  | plain hext hd => exact hsound.settled hext (hd.trans hdelay)
  | entry hext hd => exact hsound.settled hext hd
  | branch hext hheld => exact { hsound with held := fun _ => hheld, slot := fun _ => hext }
  | extension hheld hd =>
    exact { hsound with held := fun _ => hheld, slot := fun hne => absurd (hd.trans hdelay) hne }

/-- The boundary counts down within the ranges, and a lag that ends at it settles IE (R435, R503). -/
theorem countBoundary_sound {s : State} (h : Sound s) : Sound (countBoundary s) where
  memory := h.memory
  pcEven := h.pcEven
  spAligned := h.spAligned
  ibar0Even := h.ibar0Even
  ibar1Even := h.ibar1Even
  irqHoldRange := (Nat.sub_le _ _).trans h.irqHoldRange
  ieLagRange := (Nat.sub_le _ _).trans h.ieLagRange
  ieSettled := by
    intro hlag
    simp only [countBoundary_ieLag, countBoundary_ieEffective, countBoundary_psr] at hlag ⊢
    split
    · rfl
    · exact h.ieSettled (by omega)

theorem selectRequest_sound {s : State} (inp : Inputs) (h : Sound s) : Sound (selectRequest inp s).2 :=
  { countBoundary_sound h with }

/-- An accepted request drops whatever was pending (R440, R460). -/
theorem acceptRequest_settled {s : State} (r : Request) (h : Sound s) : Yields Settled (acceptRequest r s) := by
  have entry_settled : ∀ {kind v}, Yields Settled (interruptEntry s kind v s.pc) := by
    intro kind v t ht
    obtain ⟨_, _, -, -, rfl⟩ := (interruptEntry_next s t kind v s.pc).mp ht
    exact ((interruptEntry_completes s kind v s.pc _ ht).sound h).settled rfl rfl
  cases r with
  | debug =>
    intro t ht
    obtain ⟨_, _, -, -, rfl⟩ := (debugEntry_next s t s.pc).mp ht
    exact ((debugEntry_completes s s.pc _ ht).sound h).settled rfl rfl
  | nmi => exact entry_settled
  | maskable => exact entry_settled

/-- The end of a slot takes the remembered branch, so at most a held `ext` is pending after it (R342). -/
theorem leaveSlot_settled {u t : State} (d : DelayPending) (hsound : Sound t) (hend : Ending u t) :
    Settled (leaveSlot d t) := by
  have h : Sound (leaveSlot d t) := { hsound with pcEven := even_even d.target }
  cases hend with
  | plain hext | entry hext | branch hext => exact h.settled hext rfl
  | extension hheld => exact { h with held := fun _ => hheld, slot := fun hne => absurd rfl hne }

theorem runInstr_settled {s : State} (i : Instr) (h : Sound s) : Yields Settled (runInstr i s) := by
  unfold runInstr
  split
  · rename_i hdelay
    refine (exec_effect i s).mono fun t ht => ?_
    obtain ⟨_, _, -, hc⟩ := ht
    exact hc.ending.settled (hc.sound h) hdelay
  · rename_i d hdelay
    refine .orFault (.bind (exec_effect i (enterSlot s)) fun t ht => .next ?_)
    obtain ⟨_, _, -, hc⟩ := ht
    exact leaveSlot_settled d (hc.sound { h with }) hc.ending

/-- The single-step request of R430 E touches nothing the invariant speaks of. -/
theorem runNext_settled {s : State} (h : Sound s) : Yields Settled (runNext s) :=
  .bindAny fun i => .bind (runInstr_settled i h) fun _ ht => .next { ht with }

theorem boundary_settled {s : State} (inp : Inputs) (h : Sound s) : Yields Settled (boundary inp s) := by
  have hsel := selectRequest_sound inp h
  unfold boundary
  split
  · rename_i r s1 heq
    rw [heq] at hsel
    exact acceptRequest_settled r hsel
  · rename_i s1 heq
    rw [heq] at hsel
    exact runNext_settled hsel

theorem even_zero : even 0 = 0 := by decide

theorem align4_zero : align4 0 = 0 := by decide

theorem clearedByReset_sound {s : State} (h : Sound s) : Sound (clearedByReset s) where
  memory := h.memory
  pcEven := h.pcEven
  spAligned := align4_zero
  ibar0Even := even_zero
  ibar1Even := even_zero
  irqHoldRange := Nat.zero_le _
  ieLagRange := Nat.zero_le _
  ieSettled := fun _ => rfl

/-- Reset leaves nothing pending, every value at its reset value, and memory as it was (R490). -/
theorem resetSequence_settled {s : State} (h : Sound s) : Yields Settled (resetSequence s) :=
  .bind (vectorRead_even _ 0) fun _ ha => .next <|
    Sound.settled { clearedByReset_sound h with pcEven := ha } rfl rfl

theorem step_settled {s : State} (h : Settled s) : Yields Settled (step s) := by
  unfold step cycle
  dsimp only
  split
  · exact resetSequence_settled { h.toSound with }
  · split
    · exact boundary_settled _ { h.toSound with }
    · exact .next { h with }

/-- Settles O52: a step settles what it leaves pending and keeps the parameters. -/
theorem stepKeepsWellFormedState : Obligations.StepKeepsWellFormedState := by
  intro s t hs h
  exact hs.of_settled (step_sameParameters s t h) (step_settled hs.settled t h)

end Sys2Proof.Machine
end

section
/-!
PROOF of O5. Each register of the core-reserved area as a load sees it and as a store leaves it, read as numbers;
an access that is none of the eight registers at its own size falls through to the fault.
-/

namespace Sys2Proof.Machine

/-! ### The data as numbers -/

/-- A 24-bit register as the 32-bit datum of a load (R65). -/
theorem zeroTop_eq (a : Word) : zeroTop a = BitVec.ofNat 32 a.toNat :=
  eq_ofNat_of_toNat _ _ ((append_toNat (0#8) a).trans (by simp))

/-- A byte register as the 32-bit datum of a load. -/
theorem setWidth_eq_ofNat {b : Byte} {n : Nat} (h : b.toNat = n) : b.setWidth 32 = BitVec.ofNat 32 n := by
  rw [← h, BitVec.ofNat_toNat]

theorem dcrByte_toNat (d : Dcr) :
    d.toByte.toNat = d.dr.toNat * 16 + d.ibe1.toNat * 8 + d.ibe0.toNat * 4 + d.se.toNat * 2 + d.dm.toNat := by
  rcases d with ⟨dr, ibe1, ibe0, se, dm⟩
  revert dr ibe1 ibe0 se dm
  decide

theorem ssrByte_toNat (r : Ssr) : r.toByte.toNat = r.rxden.toNat * 4 + r.tdbe.toNat * 2 + r.rdbf.toNat := by
  rcases r with ⟨rxden, tdbe, rdbf⟩
  revert rxden tdbe rdbf
  decide

/-- A byte of a datum as a number: bytes count from the least significant (R61). -/
theorem byteOf_toNat (v : BitVec 32) (i : Nat) : (byteOf v i).toNat = v.toNat / 256 ^ i % 256 := by
  rw [byteOf, extract_toNat, pow_mul]
  rfl

theorem byteOf_zero (v : BitVec 32) : byteOf v 0 = BitVec.ofNat 8 v.toNat := by
  rw [← BitVec.toNat_inj, byteOf_toNat]
  simp

/-- A bit of the lowest byte is that bit of the datum. -/
theorem byteOf_zero_getLsbD (v : BitVec 32) (i : Nat) (h : i < 8) :
    (byteOf v 0).getLsbD i = decide (v.toNat / 2 ^ i % 2 = 1) := by
  rw [← getLsbD_div]
  simp [byteOf, h]

/-- What an 8-bit write leaves in DCR (R37). -/
theorem dcrWritten_eq (d : Dcr) (v : BitVec 32) :
    d.written (byteOf v 0) =
      { dr := d.dr && !decide (v.toNat / 16 % 2 = 1), ibe1 := decide (v.toNat / 8 % 2 = 1)
        ibe0 := decide (v.toNat / 4 % 2 = 1), se := decide (v.toNat / 2 % 2 = 1), dm := d.dm } := by
  have hbit := byteOf_zero_getLsbD v
  simp only [Dcr.written, hbit 4 (by decide), hbit 3 (by decide), hbit 2 (by decide), hbit 1 (by decide)]
  cases d.dr <;> simp

/-! ### The table of R79 -/

/-- An access to the core-reserved area that is no register at its own size (R79). -/
theorem coreAccess_unmapped (s : State) (w : Width) (a : Word) (v : BitVec 32)
    (h : coreRegisterAt w a = false) :
    coreRead s w a = .fault .unmappedCoreIO ∧ coreWrite s w a v = .fault .unmappedCoreIO := by
  cases w with
  | half => exact ⟨rfl, rfl⟩
  | byte | word =>
    simp only [coreRegisterAt, Bool.or_eq_false_iff, beq_eq_false_iff_ne] at h
    obtain ⟨⟨⟨h1, h2⟩, h3⟩, h4⟩ := h
    simp only [coreRead, coreWrite, if_neg h1, if_neg h2, if_neg h3, if_neg h4, and_self]

/-- Settles O5: at a register's address the access evaluates to the register, whose value is then read as a
number; anywhere else it is the fault. -/
theorem coreRegisterAccesses : Obligations.CoreRegisterAccesses := by
  intro s v
  refine ⟨⟨?_, ?_, ?_, ?_, rfl, ?_, ?_, ?_⟩, ⟨rfl, rfl, rfl, ?_, ?_, ?_, ?_, ?_⟩, fun w a ha hreg => ?_⟩
  · exact congrArg Host.Outcome.next (zeroTop_eq s.ttbr)
  · exact congrArg Host.Outcome.next (zeroTop_eq s.dbram)
  · exact congrArg Host.Outcome.next (zeroTop_eq s.ibar0)
  · exact congrArg Host.Outcome.next (zeroTop_eq s.ibar1)
  · exact congrArg Host.Outcome.next (setWidth_eq_ofNat (dcrByte_toNat s.dcr))
  · exact congrArg Host.Outcome.next (setWidth_eq_ofNat (ssrByte_toNat s.ssr))
  · exact congrArg Host.Outcome.next (setWidth_eq_ofNat rfl)
  · exact congrArg (fun x => (.next { s with ibar0 := x } : Res State)) (even_low24 v)
  · exact congrArg (fun x => (.next { s with ibar1 := x } : Res State)) (even_low24 v)
  · exact congrArg (fun x => (.next { s with dcr := x } : Res State)) (dcrWritten_eq s.dcr v)
  · exact congrArg (fun x => (.next { s with ssr := { s.ssr with rxden := x } } : Res State)) (getLsbD_div v 2)
  · exact congrArg (fun x => (.next { s with sdr := x } : Res State)) (byteOf_zero v)
  · rw [memRead, memWrite, if_pos ha, if_pos ha]
    exact coreAccess_unmapped s w a v hreg

end Sys2Proof.Machine
end

section
/-!
PROOF of O6 and O7. A load inside the bytes of a store reads the digits of the stored value in base 256; an access
below the core-reserved area is as the check of its first byte that may not be accessed.
-/

namespace Sys2Proof.Machine

theorem below_coreArea_iff (a : Word) : a < Config.coreAreaBase ↔ a.toNat < 0xfffc00 := Iff.rfl

/-! ### Reading back a store (R61) -/

/-- Bytes that hold the digits of `v` from digit `k` on make the number of those digits. -/
theorem bytesValue_digits (m : Memory) (a : Nat) (v : BitVec 32) (n k : Nat)
    (h : ∀ i < n, m.read (a + (k + i)) = byteOf v (k + i)) :
    bytesValue m (a + k) n = v.toNat / 256 ^ k % 256 ^ n := by
  induction n generalizing k with
  | zero => simp [bytesValue, Nat.mod_one]
  | succ n ih =>
    have hfirst := h 0 (by omega)
    have hrest := ih (k + 1) fun i hi => by
      have := h (i + 1) (by omega)
      rwa [show k + (i + 1) = k + 1 + i by omega] at this
    rw [Nat.add_zero] at hfirst
    rw [bytesValue, Nat.add_assoc, hrest, hfirst, byteOf_toNat, pow_succ' 256 n, Nat.mod_mul, Nat.div_div_eq_div_mul,
      ← pow_succ]

/-- Every byte of an aligned access below the core-reserved area is below it. -/
theorem aligned_access_below (w : Width) (a : Word) (h : a < Config.coreAreaBase) (hal : a.toNat % w.bytes = 0) :
    a.toNat + w.bytes ≤ 0xfffc00 := by
  rw [below_coreArea_iff] at h
  cases w <;> simp only [Width.bytes] at hal ⊢ <;> omega

/-- A load that lies inside the bytes of an aligned store reads the digits of the stored value it covers, the
lowest address the least significant (R61). -/
theorem memRead_of_memWrite {s u : State} {w : Width} {a : Word} {v : BitVec 32} (hwf : s.mem.wf = true)
    (ha : a < Config.coreAreaBase) (hal : a.toNat % w.bytes = 0) (hu : memWrite s w a v = .next u)
    (w' : Width) (k : Nat) (hk : k + w'.bytes ≤ w.bytes) :
    memRead u w' (a + BitVec.ofNat 24 k) = .next (BitVec.ofNat 32 (v.toNat / 256 ^ k % 256 ^ w'.bytes)) := by
  have hpos : 0 < w'.bytes := by cases w' <;> decide
  have hend := aligned_access_below w a ha hal
  have haddr : (a + BitVec.ofNat 24 k).toNat = a.toNat + k := by
    rw [BitVec.toNat_add, BitVec.toNat_ofNat]; omega
  have hbelow : ¬ Config.coreAreaBase ≤ a + BitVec.ofNat 24 k := by
    rw [BitVec.not_le, below_coreArea_iff, haddr]; omega
  have hstored := memWrite_storedAt s u w a v hu
  have hcan := (memWrite_completes s w a v).mpr ⟨u, hu⟩
  rw [CanStore, if_neg (BitVec.not_le.mpr ha)] at hcan
  rw [memRead_next, CanLoad, if_neg hbelow, haddr]
  constructor
  · intro i hi
    rw [hstored.environment.memMap, Nat.add_assoc]
    exact .inl (hcan (k + i) (by omega)).1
  · rw [bytesValue_digits u.mem a.toNat v _ k fun i hi => hstored.effect.stored ha hwf (k + i) (by omega),
      BitVec.toNat_ofNat, Nat.mod_eq_of_lt]
    exact (Nat.mod_le _ _).trans_lt ((Nat.div_le_self _ _).trans_lt v.isLt)

/-- Settles O6: each read is a part of the store that covers it. -/
theorem memoryReadAfterWrite : Obligations.MemoryReadAfterWrite := by
  intro s u a v hwf ha
  refine ⟨fun hal hu => ?_, fun hal hu => ?_, fun hu => ?_⟩
  · have hread := memRead_of_memWrite (w := .word) hwf ha hal hu
    have hall : v.toNat % 0x100000000 = v.toNat := Nat.mod_eq_of_lt v.isLt
    have hhigh : v.toNat / 0x10000 % 0x10000 = v.toNat / 0x10000 := by omega
    have htop : v.toNat / 0x1000000 % 0x100 = v.toNat / 0x1000000 := by omega
    refine ⟨?_, ?_, ?_, ?_, ?_, ?_, ?_, (memWrite_storedAt s u .word a v hu).effect.outside⟩
    · simpa [Width.bytes, hall] using hread .word 0 (by decide)
    · simpa [Width.bytes] using hread .half 0 (by decide)
    · simpa [Width.bytes, hhigh] using hread .half 2 (by decide)
    · simpa [Width.bytes] using hread .byte 0 (by decide)
    · simpa [Width.bytes] using hread .byte 1 (by decide)
    · simpa [Width.bytes] using hread .byte 2 (by decide)
    · simpa [Width.bytes, htop] using hread .byte 3 (by decide)
  · have hread := memRead_of_memWrite (w := .half) hwf ha hal hu
    refine ⟨?_, ?_, ?_, (memWrite_storedAt s u .half a v hu).effect.outside⟩
    · simpa [Width.bytes] using hread .half 0 (by decide)
    · simpa [Width.bytes] using hread .byte 0 (by decide)
    · simpa [Width.bytes] using hread .byte 1 (by decide)
  · have hread := memRead_of_memWrite (w := .byte) hwf ha (Nat.mod_one _) hu
    refine ⟨?_, (memWrite_storedAt s u .byte a v hu).effect.outside⟩
    simpa [Width.bytes] using hread .byte 0 (by decide)

/-! ### Where an access stops (R62, R63, R77) -/

/-- A load stops as the check of its first byte that may not be read. -/
theorem memRead_stops {s : State} {w : Width} {a : Word} {i : Nat} {r : Res Unit} (ha : a < Config.coreAreaBase)
    (hi : i < w.bytes)
    (hbefore : ∀ j < i, kindAt s.memMap (a.toNat + j) = some .ram ∨ kindAt s.memMap (a.toNat + j) = some .rom)
    (hbyte : readable s (a.toNat + i) = r) (hstop : ∀ u, r ≠ .next u) :
    memRead s w a = bindRes r fun _ => .next (loadBytes s.mem a.toNat w) := by
  rw [memRead, if_neg (BitVec.not_le.mpr ha), checkBytes_stops _ _ i _ r hi
    (fun j hj => (readable_next s _).mpr (hbefore j hj)) hbyte hstop]

/-- A store stops as the check of its first byte that may not be written. -/
theorem memWrite_stops {s : State} {w : Width} {a : Word} {v : BitVec 32} {i : Nat} {r : Res Unit}
    (ha : a < Config.coreAreaBase) (hi : i < w.bytes)
    (hbefore : ∀ j < i,
      kindAt s.memMap (a.toNat + j) = some .ram ∧ inCodeRegion s.codeRegion (a.toNat + j) = false)
    (hbyte : writable s (a.toNat + i) = r) (hstop : ∀ u, r ≠ .next u) :
    memWrite s w a v = bindRes r fun _ => .next { s with mem := storeBytes s.mem a.toNat v w } := by
  rw [memWrite, if_neg (BitVec.not_le.mpr ha), checkBytes_stops _ _ i _ r hi
    (fun j hj => (writable_next s _).mpr (hbefore j hj)) hbyte hstop]

/-- Settles O7: the kind of the first byte that may not be accessed names the stop. -/
theorem accessFaults : Obligations.AccessFaults := by
  intro s w a v i ha hi
  refine ⟨fun hbefore => ⟨fun hk => ?_, fun hk => ?_⟩,
    fun hbefore => ⟨fun hk => ?_, fun hk => ?_, fun hk hcode => ?_, fun hk => ?_⟩⟩
  · exact memRead_stops (r := .fault .unmappedRead) ha hi hbefore (by rw [readable, hk]) nofun
  · exact memRead_stops (r := .refused .deviceAccess) ha hi hbefore (by rw [readable, hk]) nofun
  · exact memWrite_stops (r := .fault .badWrite) ha hi hbefore (by rw [writable, hk]) nofun
  · exact memWrite_stops (r := .fault .badWrite) ha hi hbefore (by rw [writable, hk]) nofun
  · exact memWrite_stops (r := .fault .writeToCode) ha hi hbefore (by simp only [writable, hk, hcode, if_true]) nofun
  · exact memWrite_stops (r := .refused .deviceAccess) ha hi hbefore (by rw [writable, hk]) nofun

end Sys2Proof.Machine
end

section
/-!
PROOF of O16 and O19. Every memory form is a load from, or a store to, its effective address with the update of its
base; how such a transfer ends, at an aligned or at a misaligned address, is then said once for all forms.
-/

namespace Sys2Proof.Machine

/-! ### The operands of a memory form in the words of Safety.lean (R145 to R147) -/

theorem disp_eq (e : ExtPending) : e.disp = BitVec.ofNat 24 (dispNat e) := eq_ofNat_of_toNat _ _ (disp_toNat e)

theorem imm24_eq (imm7 : BitVec 7) (e : ExtPending) : e.imm24 imm7 = BitVec.ofNat 24 (immNat24 imm7 e) :=
  eq_ofNat_of_toNat _ _ (imm24_toNat imm7 e)

theorem modifyStep_eq (t : Transfer) (s : State) :
    modifyStep t s = BitVec.ofNat 24 (stepNat t.width.bytes s.ext) :=
  eq_ofNat_of_toNat _ _ (stepOr_toNat s.ext t)

theorem spStep_eq (s : State) : spStep s = BitVec.ofNat 24 (stepNat 4 s.ext) := modifyStep_eq .address s

theorem modifyForm_eq (s : State) (rb : Reg) (i : Instr) (t : Transfer) (m : ModifyMode) :
    modifyForm s rb i t m =
      { instr := i, kind := t, address := m.address (s.reg rb) (modifyStep t s)
        base := m.after (s.reg rb) (modifyStep t s) } := by
  rw [modifyForm, modifyStep_eq]

/-! ### What each memory form executes -/

section
variable {s : State} {rd rb rs : Reg} {imm7 : BitVec 7}

theorem exec_plainLoad {f : MemForm} (hf : f ∈ plainLoads s rd rb imm7) :
    exec f.instr s = loadFrom f.kind rd f.address id s := by
  simp only [plainLoads, ← disp_eq, ← imm24_eq] at hf
  fin_cases hf <;> rfl

theorem exec_plainStore {f : MemForm} (hf : f ∈ plainStores s rb rs imm7) :
    exec f.instr s = storeTo f.kind rs f.address id s := by
  simp only [plainStores, ← disp_eq, ← imm24_eq] at hf
  fin_cases hf <;> rfl

theorem exec_modifyingLoad {f : ModifyForm} (hne : rd ≠ rb) (hf : f ∈ modifyingLoads s rd rb) :
    exec f.instr s = loadFrom f.kind rd f.address (·.setReg rb f.base) s := by
  simp only [modifyingLoads, modifyForm_eq] at hf
  fin_cases hf <;> exact if_neg hne

theorem exec_modifyingStore {f : ModifyForm}
    (hf : f ∈ postModifyingStores s rb rs ∨ rs ≠ rb ∧ f ∈ preModifyingStores s rb rs) :
    exec f.instr s = storeTo f.kind rs f.address (·.setReg rb f.base) s := by
  obtain hpost | ⟨hne, hpre⟩ := hf
  · simp only [postModifyingStores, modifyForm_eq] at hpost
    fin_cases hpost <;> rfl
  · simp only [preModifyingStores, modifyForm_eq] at hpre
    fin_cases hpre <;> exact if_neg hne

end

/-! ### A store at an aligned address (R63, R65) -/

/-- A store that can be written at an aligned address stores the register and advances. -/
theorem storeTo_completes {t : Transfer} {rs : Reg} {ea : Word} {upd : State → State} {s : State}
    (hal : Aligned t ea) (hstore : CanStore s t.width ea) :
    ∃ u, StoredAt t.width ea (zeroTop (s.reg rs)) s u ∧ storeTo t rs ea upd s = .next (advance (upd u)) := by
  obtain ⟨u, hu⟩ := (memWrite_completes s t.width ea (zeroTop (s.reg rs))).mp hstore
  refine ⟨u, memWrite_storedAt s u _ _ _ hu, ?_⟩
  rw [storeTo_writes t rs ea upd s u (by rwa [aligned_of_multiple t ea hal]), endTransfer_aligned t ea _ hal]

theorem KeepsCoreRegisters.trans {s u t : State} (h : KeepsCoreRegisters s u) (h' : KeepsCoreRegisters u t) :
    KeepsCoreRegisters s t where
  ttbr := h'.ttbr.trans h.ttbr
  dbram := h'.dbram.trans h.dbram
  dcr := h'.dcr.trans h.dcr
  ibar0 := h'.ibar0.trans h.ibar0
  ibar1 := h'.ibar1.trans h.ibar1
  ssr := h'.ssr.trans h.ssr
  sdr := h'.sdr.trans h.sdr

/-- The effect of a store is on memory and the core's registers, so a state that agrees on those has it too. -/
theorem StoreEffect.of_agree {w : Width} {a : Word} {v : BitVec 32} {s u t : State} (h : StoreEffect w a v s u)
    (hmem : t.mem = u.mem) (hcore : KeepsCoreRegisters u t) : StoreEffect w a v s t where
  outside x hx := by rw [hmem]; exact h.outside x hx
  stored ha hwf i hi := by rw [hmem]; exact h.stored ha hwf i hi
  below ha := (h.below ha).trans hcore
  inCore ha := by
    obtain ⟨hkept, c, hwrite, hregs⟩ := h.inCore ha
    exact ⟨fun x => by rw [hmem]; exact hkept x, c, hwrite, hregs.trans hcore⟩

/-- A store that leaves its base and then advances. -/
theorem StoredAt.advance {w : Width} {a : Word} {v : BitVec 32} {s u : State} (h : StoredAt w a v s u) :
    StoresAndEnds [] w a v s (advance u) where
  store := h.effect.of_agree rfl ⟨rfl, rfl, rfl, rfl, rfl, rfl, rfl⟩
  regs := fun r _ => congrArg (·.get r) h.regs
  psr := h.psr
  environment := { h.environment with }
  hidden := ⟨{ h.hidden.acceptance with }, h.hidden.delay⟩
  draws := { h.draws with }
  advances := ⟨congrArg (· + 2) h.pc, rfl⟩

/-- Settles O16: a plain store is a store that leaves its base. -/
theorem plainStoreResults : Obligations.PlainStoreResults := by
  intro s rb rs imm7 f hf hal hstore
  obtain ⟨u, hu, hexec⟩ := storeTo_completes (rs := rs) (upd := id) hal hstore
  exact ⟨advance u, (exec_plainStore hf).trans hexec, hu.advance, hu.sp⟩

/-! ### A transfer at a misaligned address (R66, R443) -/

/-- A load at a misaligned address reads at the aligned one, updates its base and raises the interrupt. -/
theorem loadFrom_misaligned {t : Transfer} {rd : Reg} {ea : Word} {upd : State → State} {s : State} {v : BitVec 32}
    (hmis : ¬ Aligned t ea) (hload : CanLoad s t.width (alignedTo t ea) v) :
    loadFrom t rd ea upd s = raiseMisaligned (upd (s.setReg rd (loadedValue t v))) := by
  rw [alignedTo_eq] at hload
  rw [loadFrom_reads t rd ea upd s v hload, endTransfer_misaligned t ea _ hmis, toRegister_eq]

/-- A store at a misaligned address writes at the aligned one, updates its base and raises the interrupt. -/
theorem storeTo_misaligned {t : Transfer} {rs : Reg} {ea : Word} {upd : State → State} {s u : State}
    (hmis : ¬ Aligned t ea)
    (hstore : memWrite s t.width (alignedTo t ea) (zeroTop (s.reg rs)) = .next u) :
    storeTo t rs ea upd s = raiseMisaligned (upd u) := by
  rw [alignedTo_eq] at hstore
  rw [storeTo_writes t rs ea upd s u hstore, endTransfer_misaligned t ea _ hmis]

/-- `u` is at the instruction at `pc`, outside a slot and in user mode, where R443 takes the interrupt. -/
structure TakesMisaligned (pc : Word) (u : State) : Prop where
  pc : u.pc = pc
  delay : u.delay = none
  mode : u.dcr.dm = false

theorem TakesMisaligned.setReg {pc : Word} {u : State} (h : TakesMisaligned pc u) (r : Reg) (v : Word) :
    TakesMisaligned pc (u.setReg r v) := ⟨h.pc, h.delay, h.mode⟩

theorem TakesMisaligned.setSp {pc : Word} {u : State} (h : TakesMisaligned pc u) (v : Word) :
    TakesMisaligned pc (u.setSp v) := ⟨h.pc, h.delay, h.mode⟩

theorem TakesMisaligned.memWrite {pc : Word} {s u : State} {w : Width} {a : Word} {v : BitVec 32}
    (h : TakesMisaligned pc s) (hu : memWrite s w a v = .next u) : TakesMisaligned pc u :=
  have hs := memWrite_storedAt s u w a v hu
  ⟨hs.pc.trans h.pc, hs.hidden.delay.trans h.delay, hs.mode.trans h.mode⟩

theorem raiseMisaligned_eq_entry {pc : Word} {u : State} (h : TakesMisaligned pc u) :
    raiseMisaligned u = interruptEntry u .misaligned 1 pc := by
  simp [raiseMisaligned, h.pc, h.delay, h.mode]

/-- The pre-decrement forms of SP with a step that is no multiple of 4 (R232, R236). -/
theorem spPreDec_not_aligned {s : State} (hstep : stepNat 4 s.ext % 4 ≠ 0) (hsp : s.sp.toNat % 4 = 0) :
    ¬ Aligned .address (s.sp - BitVec.ofNat 24 (stepNat 4 s.ext)) := by
  change (s.sp - BitVec.ofNat 24 (stepNat 4 s.ext)).toNat % 4 ≠ 0
  rw [BitVec.toNat_sub, BitVec.toNat_ofNat]
  omega

theorem exec_ldaLoadSpPreDec (s : State) (r : Reg) :
    exec (.ldaLoadSpPreDec r) s =
      loadFrom .address r (s.sp - BitVec.ofNat 24 (stepNat 4 s.ext))
        (·.setSp (s.sp - BitVec.ofNat 24 (stepNat 4 s.ext))) s := by
  rw [← spStep_eq]; rfl

theorem exec_ldaStoreSpPreDec (s : State) (r : Reg) :
    exec (.ldaStoreSpPreDec r) s =
      storeTo .address r (s.sp - BitVec.ofNat 24 (stepNat 4 s.ext))
        (·.setSp (s.sp - BitVec.ofNat 24 (stepNat 4 s.ext))) s := by
  rw [← spStep_eq]; rfl

/-- Settles O19: each form is a load or a store, which raises the interrupt after its update, and neither the
access nor the update touches what R443 looks at. -/
theorem misalignedTransferTakesInterrupt : Obligations.MisalignedTransferTakesInterrupt := by
  intro s r q imm7 v hdelay hmode
  have hs : TakesMisaligned s.pc s := ⟨rfl, hdelay, hmode⟩
  refine ⟨fun f hf hmis hload => ?_, fun f hf hne hmis hload => ?_, fun f hf u hmis hu => ?_,
    fun f hf u hmis hu => ?_, fun hstep hsp => ⟨fun hload => ?_, fun u hu => ?_⟩⟩
  · rw [exec_plainLoad hf, loadFrom_misaligned hmis hload]
    exact raiseMisaligned_eq_entry (hs.setReg _ _)
  · rw [exec_modifyingLoad hne hf, loadFrom_misaligned hmis hload]
    exact raiseMisaligned_eq_entry ((hs.setReg _ _).setReg _ _)
  · rw [exec_plainStore hf, storeTo_misaligned hmis hu]
    exact raiseMisaligned_eq_entry (hs.memWrite hu)
  · rw [exec_modifyingStore hf, storeTo_misaligned hmis hu]
    exact raiseMisaligned_eq_entry ((hs.memWrite hu).setReg _ _)
  · rw [exec_ldaLoadSpPreDec, loadFrom_misaligned (spPreDec_not_aligned hstep hsp) hload]
    exact raiseMisaligned_eq_entry ((hs.setReg _ _).setSp _)
  · rw [exec_ldaStoreSpPreDec, storeTo_misaligned (spPreDec_not_aligned hstep hsp) hu]
    exact raiseMisaligned_eq_entry ((hs.memWrite hu).setSp _)

end Sys2Proof.Machine
end

section
/-!
PROOF of O1, O2, O3 and O4. Encoding writes the four fields of a code and decoding reads them back. One lemma for
each shape of code (which fields hold a register, which an immediate, which are fixed) says that its operands
survive; O1 sorts the constructors of `Instr` by shape, and O2 follows the decoder from class to class.
-/

namespace Sys2Proof

/-! ### Decoding the code of an instruction -/

/-- A packed code is decoded by its fields. -/
theorem decodeWord_packWord (hi : BitVec 6) (f3 : BitVec 3) (op4 : BitVec 4) (lo3 : BitVec 3) :
    decodeWord (packWord hi f3 op4 lo3) = decodeFields ⟨hi, f3, op4, lo3⟩ :=
  congrArg decodeFields (splitWord_packWord hi f3 op4 lo3)

/-! One lemma for each shape of code: if at the fixed fields of a row the decoder answers the constructor `mk` of
the operand fields, it reads the operands that were written there. -/

section
variable {hi : BitVec 6} {f3 : BitVec 3} {op4 : BitVec 4} {lo3 : BitVec 3}

theorem decode_regs {mk : Reg → Reg → Instr}
    (h : ∀ f3 lo3, decodeFields ⟨hi, f3, op4, lo3⟩ = some (mk (Reg.ofBits f3) (Reg.ofBits lo3))) (r q : Reg) :
    decodeWord (packWord hi r.bits op4 q.bits) = some (mk r q) := by
  rw [decodeWord_packWord, h, Reg.ofBits_bits, Reg.ofBits_bits]

theorem decode_regLo {mk : Reg → Instr}
    (h : ∀ lo3, decodeFields ⟨hi, f3, op4, lo3⟩ = some (mk (Reg.ofBits lo3))) (r : Reg) :
    decodeWord (packWord hi f3 op4 r.bits) = some (mk r) := by
  rw [decodeWord_packWord, h, Reg.ofBits_bits]

theorem decode_regHi {mk : Reg → Instr}
    (h : ∀ f3, decodeFields ⟨hi, f3, op4, lo3⟩ = some (mk (Reg.ofBits f3))) (r : Reg) :
    decodeWord (packWord hi r.bits op4 lo3) = some (mk r) := by
  rw [decodeWord_packWord, h, Reg.ofBits_bits]

theorem decode_storeRegs {mk : Reg → Reg → Instr}
    (h : ∀ f3 lo3, decodeFields ⟨hi, f3, op4, lo3⟩ = some (mk (Reg.ofBits lo3) (Reg.ofBits f3))) (r q : Reg) :
    decodeWord (packWord hi r.bits op4 q.bits) = some (mk q r) :=
  decode_regs (mk := fun r q => mk q r) h r q

theorem decode_regImm7 {mk : Reg → BitVec 7 → Instr}
    (h : ∀ f3 op4 lo3, decodeFields ⟨hi, f3, op4, lo3⟩ = some (mk (Reg.ofBits f3) (op4 ++ lo3))) (r : Reg)
    (v : BitVec 7) : decodeWord (packImm7 hi r.bits v) = some (mk r v) := by
  rw [packImm7, decodeWord_packWord, h, Reg.ofBits_bits, imm7_parts]

theorem decode_storeImm7 {mk : BitVec 7 → Reg → Instr}
    (h : ∀ f3 op4 lo3, decodeFields ⟨hi, f3, op4, lo3⟩ = some (mk (op4 ++ lo3) (Reg.ofBits f3))) (r : Reg)
    (v : BitVec 7) : decodeWord (packImm7 hi r.bits v) = some (mk v r) :=
  decode_regImm7 (mk := fun r v => mk v r) h r v

theorem decode_imm7 {mk : BitVec 7 → Instr}
    (h : ∀ op4 lo3, decodeFields ⟨hi, f3, op4, lo3⟩ = some (mk (op4 ++ lo3))) (v : BitVec 7) :
    decodeWord (packImm7 hi f3 v) = some (mk v) := by
  rw [packImm7, decodeWord_packWord, h, imm7_parts]

theorem decode_imm10 {mk : BitVec 10 → Instr}
    (h : ∀ f3 op4 lo3, decodeFields ⟨hi, f3, op4, lo3⟩ = some (mk (f3 ++ op4 ++ lo3))) (v : BitVec 10) :
    decodeWord (packImm10 hi v) = some (mk v) := by
  rw [packImm10, decodeWord_packWord, h, imm10_parts]

end

/-- All eight classes 010xxx are `ext`; the eight values of the low bits are those of a register field. -/
theorem decodeFields_ext (b f3 : BitVec 3) (op4 : BitVec 4) (lo3 : BitVec 3) :
    decodeFields ⟨0b010#3 ++ b, f3, op4, lo3⟩ = some (.ext (Fields.imm13 ⟨0b010#3 ++ b, f3, op4, lo3⟩)) := by
  rw [← Reg.bits_ofBits b]
  cases Reg.ofBits b <;> rfl

theorem decode_ext (v : BitVec 13) : decodeWord (packExt v) = some (.ext v) := by
  rw [packExt, decodeWord_packWord, decodeFields_ext, Fields.imm13, ext_class_low, imm13_parts]

theorem decodeFields_int (f3 : BitVec 3) (op4 : BitVec 4) (lo3 : BitVec 3) :
    decodeFields ⟨0b011101, f3, op4, lo3⟩ = decodeClass011101 ⟨0b011101, f3, op4, lo3⟩ := rfl

theorem decode_int (v : BitVec 5) : decodeWord (packInt 0b000 v 0b01) = some (.intImm v) := by
  rw [packInt, decodeWord_packWord, decodeFields_int]
  simp [decodeClass011101, Fields.sel2, Fields.imm5]

theorem decode_intl (v : BitVec 5) (level : BitVec 3) :
    decodeWord (packInt level v 0b11) = some (.intlImm v level) := by
  rw [packInt, decodeWord_packWord, decodeFields_int]
  simp [decodeClass011101, Fields.sel2, Fields.imm5]

/-- Decoding undoes encoding: the constructors stand by the shape of their codes, and at the fields of its own row
the decoder answers the instruction by evaluation. -/
theorem decodeWord_encode (i : Instr) : decodeWord (encode i) = some i := by
  cases i <;> rw [encode]
  -- formats RM_LOAD and RR
  case ldbLoadInd | ldbLoadPostInc | ldbLoadPostDec | ldbLoadPreDec | ldubLoadInd | ldubLoadPostInc |
    ldubLoadPostDec | ldubLoadPreDec | ldLoadInd | ldLoadPostInc | ldLoadPostDec | ldLoadPreDec | ldaLoadInd |
    ldaLoadPostInc | ldaLoadPostDec | ldaLoadPreDec | ldbRR | ldubRR | ldRR | ldaRR | cvla | cvab | cvls |
    cvas | cval | andRR | andC | andNC | orRR | orC | orNC | xorRR | xorC | xorNC | notRR | notC | notNC |
    srRR | saRR | slRR | swap | addRR | addC | addNC | adcRR | adcC | adcNC | subRR | subC | subNC | sbcRR |
    sbcC | sbcNC | cmpRR | cmpC | cmpNC | cmcRR | cmcC | cmcNC | addaRR | addaC | addaNC | subaRR | subaC |
    subaNC | cmpaRR | cmpaC | cmpaNC | ldcwRR | ldcaRR | ldcfRR =>
    exact decode_regs (fun _ _ => rfl) _ _
  -- format RM_STORE
  case ldbStoreInd | ldbStorePostInc | ldbStorePostDec | ldbStorePreDec | ldStoreInd | ldStorePostInc |
    ldStorePostDec | ldStorePreDec | ldaStoreInd | ldaStorePostInc | ldaStorePostDec | ldaStorePreDec =>
    exact decode_storeRegs (fun _ _ => rfl) _ _
  -- formats SP_R and BRR
  case addaSpRs | subaSpRs | jprReg | jprDelayedReg | jpaReg | jpaDelayedReg | callReg | callDelayedReg |
    callaReg | callaDelayedReg =>
    exact decode_regLo (fun _ => rfl) _
  -- format SPPC
  case ldaRdSp | ldaRdPc | ldaSpRs | ldaLoadSp | ldaLoadSpPostInc | ldaLoadSpPostDec | ldaLoadSpPreDec |
    ldaStoreSp | ldaStoreSpPostInc | ldaStoreSpPostDec | ldaStoreSpPreDec =>
    exact decode_regHi (fun _ => rfl) _
  -- format RI7
  case andImm | orImm | xorImm | notImm | srImm | saImm | slImm | addImm | adcImm | subImm | sbcImm | cmpImm |
    cmcImm | addaImm | subaImm | cmpaImm | ldcwImm | ldcaImm | ldcfImm | ldImm | ldaImm | ldbLoadAbs |
    ldbLoadSpDisp | ldubLoadAbs | ldubLoadSpDisp | ldLoadAbs | ldLoadSpDisp | ldaLoadAbs | ldaLoadSpDisp =>
    exact decode_regImm7 (fun _ _ _ => rfl) _ _
  -- the stores of format RI7
  case ldbStoreAbs | ldbStoreSpDisp | ldStoreAbs | ldStoreSpDisp | ldaStoreAbs | ldaStoreSpDisp =>
    exact decode_storeImm7 (fun _ _ _ => rfl) _ _
  -- formats SP_I7 and BR7
  case addaSpImm | subaSpImm | ldaSpImm | jpaImm | jpaDelayedImm | jrgt | jrgtDelayed | jrge | jrgeDelayed |
    jrlt | jrltDelayed | jrle | jrleDelayed | jrugt | jrugtDelayed | jruge | jrugeDelayed | jrult |
    jrultDelayed | jrule | jruleDelayed | jreq | jreqDelayed | jrne | jrneDelayed | callaImm |
    callaDelayedImm =>
    exact decode_imm7 (fun _ _ => rfl) _
  -- formats BR10, EXT and INT
  case jprImm | jprDelayedImm | callImm | callDelayedImm => exact decode_imm10 (fun _ _ _ => rfl) _
  case ext => exact decode_ext _
  case intImm => exact decode_int _
  case intlImm => exact decode_intl _ _
  -- format SYS
  case nop | halt | slp | ei | di | ret | retDelayed | reti | retiDelayed | brk | retd => rfl

theorem decodeBytes_encodeBytes (i : Instr) (rest : List Byte) :
    decodeBytes (encodeBytes i ++ rest) = .ok (i, rest) := by
  simp [encodeBytes, decodeBytes, decodeWord_encode]

/-- Settles O1: the bytes of an instruction make its code again, and its code decodes to it. -/
theorem decodeInvertsEncode : Obligations.DecodeInvertsEncode :=
  fun i rest => ⟨decodeWord_encode i, decodeBytes_encodeBytes i rest⟩

/-! ### Encoding what a code decodes to -/

/-- An instruction a decoder answers for the fields `f` has the code made of `f`. -/
def EncodesBack (f : Fields) (o : Option Instr) : Prop :=
  ∀ i, o = some i → encode i = packWord f.hi f.f3 f.op4 f.lo3

/-! The immediate read from a code's fields packs to these fields. -/

theorem packImm7_imm7 (hi : BitVec 6) (f3 : BitVec 3) (f : Fields) :
    packImm7 hi f3 f.imm7 = packWord hi f3 f.op4 f.lo3 := by
  have parts (a : BitVec 4) (b : BitVec 3) : (a ++ b).extractLsb' 3 4 = a ∧ (a ++ b).extractLsb' 0 3 = b := by
    revert a b; decide
  obtain ⟨high, low⟩ := parts f.op4 f.lo3
  rw [packImm7, Fields.imm7, high, low]

theorem packImm10_imm10 (hi : BitVec 6) (f : Fields) :
    packImm10 hi f.imm10 = packWord hi f.f3 f.op4 f.lo3 := by
  have toNat_imm10 : f.imm10.toNat = (f.f3.toNat * 16 + f.op4.toNat) * 8 + f.lo3.toNat := by
    rw [Fields.imm10, append_toNat (f.f3 ++ f.op4), append_toNat f.f3]
    rfl
  have := f.op4.isLt
  have := f.lo3.isLt
  have := f.f3.isLt
  simp only [packImm10, ← BitVec.toNat_inj, packWord_toNat, extract_toNat, toNat_imm10]
  omega

theorem packExt_imm13 (f : Fields) (h : f.hi.toNat / 8 = 0b010) :
    packExt f.imm13 = packWord f.hi f.f3 f.op4 f.lo3 := by
  have toNat_imm13 :
      f.imm13.toNat = ((f.hi.toNat % 8 * 8 + f.f3.toNat) * 16 + f.op4.toNat) * 8 + f.lo3.toNat := by
    rw [Fields.imm13, append_toNat (_ ++ f.f3 ++ f.op4), append_toNat (_ ++ f.f3), append_toNat _ f.f3,
      extract_toNat, Nat.pow_zero, Nat.div_one]
    rfl
  have := f.op4.isLt
  have := f.lo3.isLt
  have := f.f3.isLt
  have toNat_ext : (0b010#3).toNat = 2 := rfl
  simp only [packExt, ← BitVec.toNat_inj, packWord_toNat, append_toNat 0b010#3, extract_toNat, toNat_imm13, toNat_ext]
  omega

theorem packInt_imm5 (f3 : BitVec 3) (f : Fields) (sel : BitVec 2) (h : f.sel2.toNat = sel.toNat) :
    packInt f3 f.imm5 sel = packWord 0b011101 f3 f.op4 f.lo3 := by
  have vector (a : BitVec 4) (b : BitVec 1) : (a ++ b).extractLsb' 1 4 = a ∧ (a ++ b).extractLsb' 0 1 = b := by
    revert a b; decide
  have selector (b : BitVec 3) : b.extractLsb' 2 1 ++ b.extractLsb' 0 2 = b := by revert b; decide
  obtain ⟨high, low⟩ := vector f.op4 (f.lo3.extractLsb' 2 1)
  rw [packInt, Fields.imm5, high, low, ← BitVec.eq_of_toNat_eq h, Fields.sel2, selector]

section
variable {f : Fields} {i : Instr} {hi : BitVec 6} {f3 : BitVec 3} {op4 : BitVec 4} {lo3 : BitVec 3}

/-! What a row of the decoder answers encodes back if the fixed fields of its code (`he`) are those the row was
chosen by. -/

theorem EncodesBack.none : EncodesBack f none := by rintro _ ⟨⟩

theorem EncodesBack.ite {n : Nat} {a b : BitVec n} {o p : Option Instr} (ho : a.toNat = b.toNat → EncodesBack f o)
    (hp : EncodesBack f p) : EncodesBack f (if a = b then o else p) := by
  split
  · exact ho (congrArg _ ‹_›)
  · exact hp

theorem EncodesBack.fixed (he : encode i = packWord hi f3 op4 lo3) (h : f.hi.toNat = hi.toNat)
    (h3 : f.f3.toNat = f3.toNat) (h4 : f.op4.toNat = op4.toNat) (hl : f.lo3.toNat = lo3.toNat) :
    EncodesBack f (some i) := by
  rintro _ ⟨⟩
  rw [he, BitVec.eq_of_toNat_eq h, BitVec.eq_of_toNat_eq h3, BitVec.eq_of_toNat_eq h4, BitVec.eq_of_toNat_eq hl]

theorem EncodesBack.regs (he : encode i = packWord hi f.regHi.bits op4 f.regLo.bits) (h : f.hi.toNat = hi.toNat)
    (h4 : f.op4.toNat = op4.toNat) : EncodesBack f (some i) :=
  .fixed he h (by rw [Fields.regHi, Reg.bits_ofBits]) h4 (by rw [Fields.regLo, Reg.bits_ofBits])

theorem EncodesBack.regLo (he : encode i = packWord hi f3 op4 f.regLo.bits) (h : f.hi.toNat = hi.toNat)
    (h3 : f.f3.toNat = f3.toNat) (h4 : f.op4.toNat = op4.toNat) : EncodesBack f (some i) :=
  .fixed he h h3 h4 (by rw [Fields.regLo, Reg.bits_ofBits])

theorem EncodesBack.regHi (he : encode i = packWord hi f.regHi.bits op4 lo3) (h : f.hi.toNat = hi.toNat)
    (h4 : f.op4.toNat = op4.toNat) (hl : f.lo3.toNat = lo3.toNat) : EncodesBack f (some i) :=
  .fixed he h (by rw [Fields.regHi, Reg.bits_ofBits]) h4 hl

theorem EncodesBack.imm7 (he : encode i = packImm7 hi f3 f.imm7) (h : f.hi.toNat = hi.toNat)
    (h3 : f.f3.toNat = f3.toNat) : EncodesBack f (some i) :=
  .fixed (he.trans (packImm7_imm7 hi f3 f)) h h3 rfl rfl

theorem EncodesBack.regImm7 (he : encode i = packImm7 hi f.regHi.bits f.imm7) (h : f.hi.toNat = hi.toNat) :
    EncodesBack f (some i) :=
  .imm7 he h (by rw [Fields.regHi, Reg.bits_ofBits])

theorem EncodesBack.imm10 (he : encode i = packImm10 hi f.imm10) (h : f.hi.toNat = hi.toNat) :
    EncodesBack f (some i) :=
  .fixed (he.trans (packImm10_imm10 hi f)) h rfl rfl rfl

theorem EncodesBack.ext (h : f.hi.toNat / 8 = 0b010) : EncodesBack f (some (.ext f.imm13)) := by
  rintro _ ⟨⟩
  exact packExt_imm13 f h

/-! The classes of the decoder, each for the codes that `decodeFields` gives it. -/

theorem decodeSys000_encodesBack (h : f.hi.toNat = 0b000000) (h3 : f.f3.toNat = 0b000) :
    EncodesBack f (decodeSys000 f) := by
  unfold decodeSys000
  split
  case h_6 => exact .none
  all_goals exact .ite (.fixed rfl h h3 ‹_›) .none

theorem decodeSys010_encodesBack (h : f.hi.toNat = 0b000000) (h3 : f.f3.toNat = 0b010) :
    EncodesBack f (decodeSys010 f) := by
  unfold decodeSys010
  split
  case h_9 => exact .none
  case h_3 | h_4 | h_7 | h_8 => exact .ite (.fixed rfl h h3 ‹_›) .none
  all_goals exact .regLo rfl h h3 ‹_›

theorem decodeSys011_encodesBack (h : f.hi.toNat = 0b000000) (h3 : f.f3.toNat = 0b011) :
    EncodesBack f (decodeSys011 f) := by
  unfold decodeSys011
  split
  case h_7 => exact .none
  case h_3 | h_4 => exact .ite (.fixed rfl h h3 ‹_›) .none
  all_goals exact .regLo rfl h h3 ‹_›

theorem decodeClass000000_encodesBack (h : f.hi.toNat = 0b000000) :
    EncodesBack f (decodeClass000000 f) := by
  unfold decodeClass000000
  split
  case h_6 => exact .none
  case h_1 => exact decodeSys000_encodesBack h ‹_›
  case h_2 => exact decodeSys010_encodesBack h ‹_›
  case h_3 => exact decodeSys011_encodesBack h ‹_›
  all_goals exact .imm7 rfl h ‹_›

theorem decodeClass000001_encodesBack (h : f.hi.toNat = 0b000001) :
    EncodesBack f (decodeClass000001 f) := by
  unfold decodeClass000001
  split
  case h_7 => exact .none
  all_goals exact .imm7 rfl h ‹_›

theorem decodeClass000010_encodesBack (h : f.hi.toNat = 0b000010) :
    EncodesBack f (decodeClass000010 f) := by
  unfold decodeClass000010
  split
  case h_9 => exact .none
  all_goals exact .imm7 rfl h ‹_›

theorem decodeClass000011_encodesBack (h : f.hi.toNat = 0b000011) :
    EncodesBack f (decodeClass000011 f) := by
  unfold decodeClass000011
  split
  case h_9 => exact .none
  all_goals exact .imm7 rfl h ‹_›

theorem decodeClass001000_encodesBack (h : f.hi.toNat = 0b001000) :
    EncodesBack f (decodeClass001000 f) := by
  unfold decodeClass001000
  split
  case h_16 => exact .regs rfl h (show f.op4.toNat = 15 by have := f.op4.isLt; grind)
  all_goals exact .regs rfl h ‹_›

theorem decodeClass001001_encodesBack (h : f.hi.toNat = 0b001001) :
    EncodesBack f (decodeClass001001 f) := by
  unfold decodeClass001001
  split
  case h_13 => exact .none
  all_goals exact .regs rfl h ‹_›

theorem decodeClass001010_encodesBack (h : f.hi.toNat = 0b001010) :
    EncodesBack f (decodeClass001010 f) := by
  unfold decodeClass001010
  split
  case h_10 => exact .none
  all_goals exact .regs rfl h ‹_›

theorem decodeClass001011_encodesBack (h : f.hi.toNat = 0b001011) :
    EncodesBack f (decodeClass001011 f) := by
  unfold decodeClass001011
  split
  case h_16 => exact .regs rfl h (show f.op4.toNat = 15 by have := f.op4.isLt; grind)
  all_goals exact .regs rfl h ‹_›

theorem decodeClass001100_encodesBack (h : f.hi.toNat = 0b001100) :
    EncodesBack f (decodeClass001100 f) := by
  unfold decodeClass001100
  split
  case h_9 => exact .none
  case h_2 | h_4 => exact .ite (.regLo rfl h · ‹_›) .none
  all_goals exact .regs rfl h ‹_›

theorem decodeClass001101_encodesBack (h : f.hi.toNat = 0b001101) :
    EncodesBack f (decodeClass001101 f) := by
  unfold decodeClass001101
  split
  case h_7 => exact .none
  all_goals exact .regs rfl h ‹_›

theorem decodeClass001110_encodesBack (h : f.hi.toNat = 0b001110) :
    EncodesBack f (decodeClass001110 f) := by
  unfold decodeClass001110
  split
  case h_13 => exact .none
  all_goals exact .regs rfl h ‹_›

theorem decodeClass001111_encodesBack (h : f.hi.toNat = 0b001111) :
    EncodesBack f (decodeClass001111 f) := by
  unfold decodeClass001111
  split
  case h_14 => exact .none
  case h_3 | h_7 | h_11 => exact .ite (.regHi rfl h ‹_›) .none
  case h_4 | h_8 | h_12 | h_13 => exact .ite (.regHi rfl h ‹_›) (.ite (.regHi rfl h ‹_›) .none)
  all_goals exact .regs rfl h ‹_›

theorem decodeClass011101_encodesBack (h : f.hi.toNat = 0b011101) :
    EncodesBack f (decodeClass011101 f) := by
  unfold decodeClass011101
  split
  case h_1 hsel => exact .ite (.fixed (packInt_imm5 0b000 f 0b01 hsel) h · rfl rfl) .none
  case h_2 hsel => exact .fixed (packInt_imm5 f.f3 f 0b11 hsel) h rfl rfl rfl
  case h_3 => exact .none

/-- Every instruction the decoder answers has the code it was read from. -/
theorem decodeFields_encodesBack (f : Fields) : EncodesBack f (decodeFields f) := by
  unfold decodeFields
  split
  case h_1 h => exact decodeClass000000_encodesBack h
  case h_2 h => exact decodeClass000001_encodesBack h
  case h_3 h => exact decodeClass000010_encodesBack h
  case h_4 h => exact decodeClass000011_encodesBack h
  case h_9 h => exact decodeClass001000_encodesBack h
  case h_10 h => exact decodeClass001001_encodesBack h
  case h_11 h => exact decodeClass001010_encodesBack h
  case h_12 h => exact decodeClass001011_encodesBack h
  case h_13 h => exact decodeClass001100_encodesBack h
  case h_14 h => exact decodeClass001101_encodesBack h
  case h_15 h => exact decodeClass001110_encodesBack h
  case h_16 h => exact decodeClass001111_encodesBack h
  case h_30 h => exact decodeClass011101_encodesBack h
  -- BR10, EXT and SP_I7; the classes that are left are RI7
  case h_5 | h_6 | h_7 | h_8 => exact .imm10 rfl ‹_›
  case h_17 | h_18 | h_19 | h_20 | h_21 | h_22 | h_23 | h_24 => exact .ext (by omega)
  case h_26 | h_28 | h_48 => exact .ite (.imm7 rfl ‹_›) .none
  case h_64 => exact .none
  all_goals exact .regImm7 rfl ‹_›

end

theorem encode_of_decodeWord {w : BitVec 16} {i : Instr} (h : decodeWord w = some i) : encode i = w :=
  (decodeFields_encodesBack (splitWord w) i h).trans (packWord_splitWord w)

/-- Settles O2: what the decoder answers for the fields of a code encodes to these fields. -/
theorem encodeInvertsDecode : Obligations.EncodeInvertsDecode :=
  fun _ _ h => encode_of_decodeWord h

/-- Encoding and decoding name the same pairs of a code and an instruction. -/
theorem decodeWord_eq_some_iff {w : BitVec 16} {i : Instr} : decodeWord w = some i ↔ encode i = w :=
  ⟨encode_of_decodeWord, fun h => h ▸ decodeWord_encode i⟩

/-- Settles O3: each sample is the code of its instruction, and no class has the last one. -/
theorem sampleCodesDecode : Obligations.SampleCodesDecode := by
  unfold Obligations.SampleCodesDecode
  simp only [decodeWord_eq_some_iff]
  decide

end Sys2Proof

namespace Sys2Proof.Machine

/-! ### Fetching a code that decodes to nothing (R110) -/

theorem decodeBytes_code_unassigned (m : Memory) (a : Word) :
    decodeBytes [m.read a.toNat, m.read (a.toNat + 1)] = .error .unassignedOpcode ↔
      decodeWord (codeAt m a) = none := by
  simp only [decodeBytes, codeAt]
  split <;> simp_all

theorem fetchInstr_unassigned {s : State} {code : BitVec 16} (hfetch : fetch s = .next code)
    (hcode : decodeWord code = none) : fetchInstr s = .fault .unassignedOpcode := by
  rw [fetchInstr, hfetch, bindRes_next, hcode]

theorem runNext_fetch_fault {s : State} {e : Fault} (h : fetchInstr s = .fault e) : runNext s = .fault e := by
  rw [runNext, h, bindRes_fault]

/-- Settles O4: the fetch of the step reads the code, and the fault of decoding it ends the step. -/
theorem unassignedCodeFaults : Obligations.UnassignedCodeFaults := by
  intro s m hruns hfetch hbytes
  rw [step_runsNext s hruns]
  exact runNext_fetch_fault
    (fetchInstr_unassigned (fetch_reads m _ hfetch) ((decodeBytes_code_unassigned m _).mp hbytes))

end Sys2Proof.Machine
end

section
/-!
PROOF of O8, O9 and O26. `ext` is the one instruction that leaves an `ext` pending: every shared operation an
instruction can end in is shown once to yield a state with none, and `exec_usesUpExt` collects the instructions. A
conditional form that skips is the ordinary end and nothing else.
-/

namespace Sys2Proof.Machine

/-! ### The `ext` instruction (R150) -/

theorem exec_ext (e : BitVec 13) (s : State) :
    exec (.ext e) s =
      .next { s with
        ext := s.ext.append e, irqHold := max s.irqHold 1, dbgHold := true, pc := s.pc + 2 } := rfl

/-- Settles O8: by what is pending before, none, one or two immediates. -/
theorem extPrefixEffect : Obligations.ExtPrefixEffect := by
  intro s e
  rw [exec_ext]
  cases s.ext with
  | none | one | two => rfl

/-! ### The pending `ext` is used up (R140 item 2) -/

/-- No `ext` is pending. -/
abbrev UsesUpExt (t : State) : Prop := t.ext = .none

theorem interruptEntry_usesUpExt (s : State) (kind : EntryKind) (v : BitVec 5) (ret : Word) :
    Yields UsesUpExt (interruptEntry s kind v ret) :=
  .bindAny fun _ => .bindAny fun _ => .next rfl

theorem softwareInterrupt_usesUpExt (s : State) (v : BitVec 5) (level : Option (BitVec 3)) :
    Yields UsesUpExt (softwareInterrupt s v level) :=
  .unlessFault (.bindAny fun _ => .bindAny fun _ => .next rfl)

theorem debugEntry_usesUpExt (s : State) (ret : Word) : Yields UsesUpExt (debugEntry s ret) :=
  .bindAny fun _ => .bindAny fun _ => .next rfl

theorem debugReturn_usesUpExt (s : State) : Yields UsesUpExt (debugReturn s) :=
  .bindAny fun _ => .bindAny fun _ => .next rfl

/-- A transfer uses the `ext` up also where it ends in the address-misaligned interrupt (R443). -/
theorem endTransfer_usesUpExt (t : Transfer) (ea : Word) (s : State) :
    Yields UsesUpExt (endTransfer t ea s) := by
  intro r hr
  obtain rfl | ⟨-, -, hentry⟩ := endTransfer_next t ea s r hr
  · rfl
  · exact interruptEntry_usesUpExt s _ _ _ r hentry

theorem loadFrom_usesUpExt {t : Transfer} {rd : Reg} {ea : Word} {upd : State → State} {s : State} :
    Yields UsesUpExt (loadFrom t rd ea upd s) :=
  .bindAny fun _ => endTransfer_usesUpExt t ea _

theorem storeTo_usesUpExt {t : Transfer} {rs : Reg} {ea : Word} {upd : State → State} {s : State} :
    Yields UsesUpExt (storeTo t rs ea upd s) :=
  .bindAny fun _ => endTransfer_usesUpExt t ea _

theorem callTo_usesUpExt (target : Word) (s : State) : Yields UsesUpExt (callTo target s) :=
  .bindAny fun _ => .next rfl

theorem callToDelayed_usesUpExt (target : Word) (s : State) : Yields UsesUpExt (callToDelayed target s) :=
  .bindAny fun _ => .next rfl

theorem onCarry_usesUpExt {want : Bool} {run : State → State} {s : State} (h : UsesUpExt (run s)) :
    UsesUpExt (onCarry want run s) := by
  unfold onCarry
  split
  · exact h
  · rfl

theorem condJump_usesUpExt (c : Cond) (sign7 : BitVec 7) (s : State) : UsesUpExt (condJump c sign7 s) := by
  unfold condJump
  split
  · rfl
  · rfl

theorem shiftReg_usesUpExt (kind : ShiftKind) (rd : Reg) (x : Nat) (s : State) :
    UsesUpExt (shiftReg kind rd x s) := by
  unfold shiftReg
  dsimp only
  split
  · rfl
  · rfl

theorem execLdaRdPc_usesUpExt (rd : Reg) (s : State) : Yields UsesUpExt (execLdaRdPc rd s) := by
  unfold execLdaRdPc
  split
  · exact .next rfl
  · exact .fault
  · exact .fault

/-- Every instruction but `ext` that completes has used up the pending `ext`. The arms are grouped by the shared
operation they end in. -/
theorem exec_usesUpExt (i : Instr) (s : State) (hi : ∀ e, i ≠ .ext e) : Yields UsesUpExt (exec i s) := by
  cases i with
  | ext e => exact absurd rfl (hi e)
  -- loads and stores, those first that may not stop before their access
  | ldbLoadInd | ldubLoadInd | ldLoadInd | ldaLoadInd
  | ldbLoadSpDisp | ldubLoadSpDisp | ldLoadSpDisp | ldaLoadSpDisp
  | ldbLoadAbs | ldubLoadAbs | ldLoadAbs | ldaLoadAbs | ldaLoadSp =>
    exact loadFrom_usesUpExt
  | ldaLoadSpPreDec rd =>
    rw [exec_ldaLoadSpPreDec]
    exact loadFrom_usesUpExt
  | ldbStoreInd | ldStoreInd | ldaStoreInd | ldbStoreSpDisp | ldStoreSpDisp | ldaStoreSpDisp
  | ldbStoreAbs | ldStoreAbs | ldaStoreAbs | ldaStoreSp | ldaStoreSpPreDec
  | ldbStorePostInc | ldStorePostInc | ldaStorePostInc
  | ldbStorePostDec | ldStorePostDec | ldaStorePostDec =>
    exact storeTo_usesUpExt
  | ldbLoadPostInc | ldubLoadPostInc | ldLoadPostInc | ldaLoadPostInc
  | ldbLoadPostDec | ldubLoadPostDec | ldLoadPostDec | ldaLoadPostDec
  | ldbLoadPreDec | ldubLoadPreDec | ldLoadPreDec | ldaLoadPreDec
  | ldaLoadSpPostInc | ldaLoadSpPostDec =>
    exact .unlessFault loadFrom_usesUpExt
  | ldbStorePreDec | ldStorePreDec | ldaStorePreDec | ldaStoreSpPostInc | ldaStoreSpPostDec =>
    exact .unlessFault storeTo_usesUpExt
  -- results, system control and jumps that always complete
  | ldbRR | ldubRR | ldRR | ldaRR | ldaImm | ldaSpImm | ldaRdSp | ldaSpRs
  | cvla | cvab | cvls | cvas | cval | swap
  | andRR | orRR | xorRR | notRR
  | addRR | adcRR | subRR | sbcRR | cmpRR | cmcRR
  | addaRR | addaImm | addaSpRs | addaSpImm | subaRR | subaImm | subaSpRs | subaSpImm | cmpaRR | cmpaImm
  | ldcwRR | ldcwImm | ldcaRR | ldcaImm | ldcfRR | ldcfImm
  | nop | halt | slp | ei | di
  | jprReg | jprDelayedReg | jpaImm | jpaDelayedImm | jpaReg | jpaDelayedReg
  | jrgtDelayed | jrgeDelayed | jrltDelayed | jrleDelayed | jrugtDelayed | jrugeDelayed | jrultDelayed
  | jruleDelayed | jreqDelayed | jrneDelayed =>
    exact .next rfl
  | andC | andNC | orC | orNC | xorC | xorNC | notC | notNC
  | addC | addNC | adcC | adcNC | subC | subNC | sbcC | sbcNC | cmpC | cmpNC | cmcC | cmcNC
  | addaC | addaNC | subaC | subaNC | cmpaC | cmpaNC =>
    exact .next (onCarry_usesUpExt rfl)
  | srRR | srImm | saRR | saImm | slRR | slImm => exact .next (shiftReg_usesUpExt _ _ _ s)
  | jrgt | jrge | jrlt | jrle | jrugt | jruge | jrult | jrule | jreq | jrne =>
    exact .next (condJump_usesUpExt _ _ s)
  -- immediates that two `ext` make a fault, and returns
  | andImm | orImm | xorImm | notImm | addImm | adcImm | subImm | sbcImm | cmpImm | cmcImm | ldImm
  | jprImm | jprDelayedImm | ret | retDelayed | reti | retiDelayed =>
    exact .bindAny fun _ => .next rfl
  | ldaRdPc rd => exact execLdaRdPc_usesUpExt rd s
  -- calls, software interrupts and the debug instructions
  | callImm => exact .bindAny fun _ => callTo_usesUpExt _ s
  | callDelayedImm => exact .bindAny fun _ => callToDelayed_usesUpExt _ s
  | callReg | callaImm | callaReg => exact callTo_usesUpExt _ s
  | callDelayedReg | callaDelayedImm | callaDelayedReg => exact callToDelayed_usesUpExt _ s
  | intImm | intlImm => exact softwareInterrupt_usesUpExt s _ _
  | brk => exact .unlessFault (.bind (debugEntry_usesUpExt s _) fun _ h => .next h)
  | retd => exact .orFault (debugReturn_usesUpExt s)

/-- Settles O9, instruction by instruction in `exec_usesUpExt`. -/
theorem onlyExtLeavesPrefixPending : Obligations.OnlyExtLeavesPrefixPending :=
  fun i s t h hi => exec_usesUpExt i s hi t h

/-! ### A conditional form that skips (R153, R272) -/

/-- The two conditional forms of an instruction run the same operation, each on its own value of C. -/
theorem exec_conditionalForm {s : State} {rd rs : Reg} {f : ConditionalForm} (hf : f ∈ conditionalForms rd rs) :
    ∃ run, exec f.ifCarry s = .next (onCarry true run s) ∧ exec f.ifNoCarry s = .next (onCarry false run s) := by
  unfold conditionalForms at hf
  fin_cases hf <;> exact ⟨_, rfl, rfl⟩

theorem onCarry_skips {want : Bool} {run : State → State} {s : State} (h : s.psr.c = !want) :
    onCarry want run s = advance s :=
  if_neg (by simp [h])

/-- Settles O26: where the condition does not hold, either form is the ordinary end. -/
theorem conditionalFormsSkip : Obligations.ConditionalFormsSkip := by
  intro s rd rs f hf
  obtain ⟨run, hcarry, hnoCarry⟩ := exec_conditionalForm (s := s) hf
  have hskip : WritesPsr s.psr s (advance s) := advance_writesPsr s.psr s
  refine ⟨fun hc => ⟨advance s, ?_, hskip⟩, fun hc => ⟨advance s, ?_, hskip⟩⟩
  · rw [hcarry, onCarry_skips hc]
  · rw [hnoCarry, onCarry_skips hc]

end Sys2Proof.Machine
end

section
/-!
PROOF of O10, O15 and O17. A modifying form with operands its rule allows is a load or a store with one register
update before the ordinary end; with operands its rule forbids it stops at its first check.
-/

namespace Sys2Proof.Machine

/-! ### Operands that stop an instruction (R140 item 4, R162, R230) -/

/-- Two pending `ext` stop whatever goes on with an immediate that takes at most one (R140 item 4). -/
theorem twoExt_stops {α β : Type} {s : State} {e : ExtPending → Res α} {f : α → Res β} (h : ¬ AtMostOneExt s)
    (he : ∀ e1 e2, e (.two e1 e2) = .fault .extCountUnsupported) :
    bindRes (e s.ext) f = .fault .extCountUnsupported := by
  simp only [AtMostOneExt, not_forall, not_not] at h
  obtain ⟨e1, e2, hext⟩ := h
  rw [hext, he, bindRes_fault]

section
variable {s : State} {r : Reg}

theorem exec_modifyingLoad_overlap {f : ModifyForm} (hf : f ∈ modifyingLoads s r r) :
    exec f.instr s = .fault .modifyRegisterOverlap := by
  unfold modifyingLoads at hf
  fin_cases hf <;> exact if_pos rfl

theorem exec_preModifyingStore_overlap {f : ModifyForm} (hf : f ∈ preModifyingStores s r r) :
    exec f.instr s = .fault .modifyRegisterOverlap := by
  unfold preModifyingStores at hf
  fin_cases hf <;> exact if_pos rfl

/-- The step of a modifying form of SP is checked as a 32-bit address is (R66, R230). -/
theorem spStepMisaligned_iff : spStepMisaligned s = true ↔ stepNat 4 s.ext % 4 ≠ 0 := by
  have hstep : (spStep s).toNat = stepNat 4 s.ext := stepOr_toNat s.ext .address
  rw [← hstep]
  exact misaligned_iff .address (spStep s)

end

/-- Settles O10: by the three checks, of the `ext` count, of the registers and of the step of SP. -/
theorem operandFaults : Obligations.OperandFaults := by
  intro s r q imm7 imm10
  refine ⟨fun hext => ?_, fun f hf => ?_, fun hstep => ?_⟩
  · have himm {β : Type} (f : BitVec 16 → Res β) : bindRes (s.ext.imm16 imm7) f = .fault .extCountUnsupported :=
      twoExt_stops (e := (·.imm16 imm7)) hext fun _ _ => rfl
    have hsign {β : Type} (f : BitVec 16 → Res β) : bindRes (s.ext.sign16 imm7) f = .fault .extCountUnsupported :=
      twoExt_stops (e := (·.sign16 imm7)) hext fun _ _ => rfl
    have hrel {β : Type} (f : Word → Res β) : bindRes (s.ext.rel10 imm10) f = .fault .extCountUnsupported :=
      twoExt_stops (e := (·.rel10 imm10)) hext fun _ _ => rfl
    simp only [List.forall_mem_cons]
    exact ⟨himm _, himm _, himm _, himm _, hsign _, hsign _, hsign _, hsign _, hsign _, hsign _, hsign _,
      hrel _, hrel _, hrel _, hrel _, nofun⟩
  · obtain hload | hstore := List.mem_append.mp hf
    · exact exec_modifyingLoad_overlap hload
    · exact exec_preModifyingStore_overlap hstore
  · intro i hi
    have hcheck : spStepMisaligned s = true := spStepMisaligned_iff.mpr hstep
    fin_cases hi <;> exact if_pos hcheck

/-! ### Modifying loads at an aligned address (R134, R146) -/

/-- A load that can be read at an aligned address writes its register and its base, and advances. -/
theorem loadFrom_completes {t : Transfer} {rd : Reg} {ea : Word} {upd : State → State} {s : State} {v : BitVec 32}
    (hal : Aligned t ea) (hload : CanLoad s t.width ea v) :
    loadFrom t rd ea upd s = .next (advance (upd (s.setReg rd (loadedValue t v)))) := by
  rw [← aligned_of_multiple t ea hal] at hload
  rw [loadFrom_reads t rd ea upd s v hload, endTransfer_aligned t ea _ hal, toRegister_eq]

/-- Two register writes keep all but their registers and PC. -/
theorem setReg_setReg_endsPlainly (rd rb : Reg) (v b : Word) (s : State) :
    EndsPlainly [rd, rb] s (advance ((s.setReg rd v).setReg rb b)) where
  system := {
    regs := fun r hr => by
      simp only [List.mem_cons, List.not_mem_nil, or_false, not_or] at hr
      obtain ⟨hrd, hrb⟩ := hr
      exact (reg_setReg_other (s.setReg rd v) rb r b hrb).trans (reg_setReg_other s rd r v hrd)
    core := ⟨rfl, rfl, rfl, rfl, rfl, rfl, rfl⟩
    environment := ⟨rfl, rfl, rfl, rfl, rfl⟩ }
  hidden := ⟨⟨rfl, rfl, rfl, rfl, rfl, rfl, rfl⟩, rfl⟩
  draws := ⟨rfl, rfl⟩
  memory := fun _ => rfl
  advances := ⟨rfl, rfl⟩

/-- Settles O15: the datum is written before the base, which is another register. -/
theorem modifyingLoadResults : Obligations.ModifyingLoadResults := by
  intro s rd rb v hne f hf hal hload
  have hrd : ((s.setReg rd (loadedValue f.kind v)).setReg rb f.base).reg rd = loadedValue f.kind v :=
    (reg_setReg_other _ rb rd f.base hne).trans (reg_setReg_self s rd _)
  exact ⟨_, (exec_modifyingLoad hne hf).trans (loadFrom_completes hal hload), hrd, reg_setReg_self _ rb f.base,
    rfl, rfl, setReg_setReg_endsPlainly rd rb _ f.base s⟩

/-! ### Modifying stores at an aligned address (R134, R162) -/

/-- A store that updates its base and then advances. -/
theorem StoredAt.advance_setReg {w : Width} {a : Word} {v : BitVec 32} {s u : State} (h : StoredAt w a v s u)
    (rb : Reg) (b : Word) : StoresAndEnds [rb] w a v s (Machine.advance (u.setReg rb b)) where
  store := h.effect.of_agree rfl ⟨rfl, rfl, rfl, rfl, rfl, rfl, rfl⟩
  regs := fun r hr =>
    (reg_setReg_other u rb r b (List.mem_singleton.not.mp hr)).trans (congrArg (·.get r) h.regs)
  psr := h.psr
  environment := { h.environment with }
  hidden := ⟨{ h.hidden.acceptance with }, h.hidden.delay⟩
  draws := { h.draws with }
  advances := ⟨congrArg (· + 2) h.pc, rfl⟩

/-- Settles O17: the store reads `rs` before the base is written, so the two may be one register. -/
theorem modifyingStoreResults : Obligations.ModifyingStoreResults := by
  intro s rb rs f hf hal hstore
  obtain ⟨u, hu, hexec⟩ := storeTo_completes (rs := rs) (upd := (·.setReg rb f.base)) hal hstore
  exact ⟨_, (exec_modifyingStore hf).trans hexec, hu.advance_setReg rb f.base, hu.sp, reg_setReg_self u rb f.base⟩

end Sys2Proof.Machine
end

section
/-!
PROOF of O11, O12 and O14. Every one of these instructions ends as a register result or as a load of SP; what is left
to say is the value, so each bit-field operation of the transfers is read once as a number.
-/

namespace Sys2Proof.Machine

/-! ### The values of the register transfers (R163, R176, R411 to R415, R328) -/

/-- The low byte as `ld.b` writes it: sign-extended to 16 bits only (R163). -/
theorem zext24_signExtend_lowByte_toNat (v : Word) :
    (zext24 ((v.extractLsb' 0 8).signExtend 16)).toNat = byteTo16 (v.toNat % 0x100) := by
  rw [zext24_toNat, signExtend_toNat (by omega), extract_toNat]
  simp [byteTo16]

theorem setWidth_byte_toNat (b : Byte) : (b.setWidth 24).toNat = b.toNat := by
  rw [BitVec.toNat_setWidth]
  omega

theorem signExtend_lowByte_toNat (v : Word) :
    ((v.extractLsb' 0 8).signExtend 24).toNat =
      if v.toNat % 0x100 < 0x80 then v.toNat % 0x100 else v.toNat % 0x100 + 0xffff00 := by
  rw [signExtend_toNat (by omega), extract_toNat]
  simp

theorem signExtend_low16_toNat (v : Word) :
    ((low16 v).signExtend 24).toNat =
      if v.toNat % 0x10000 < 0x8000 then v.toNat % 0x10000 else v.toNat % 0x10000 + 0xff0000 := by
  rw [signExtend_toNat (by omega), low16_toNat]
  simp

theorem lowByte_append_low16_toNat (v old : Word) :
    (v.extractLsb' 0 8 ++ low16 old).toNat = v.toNat % 0x100 * 0x10000 + old.toNat % 0x10000 := by
  rw [append_toNat, extract_toNat, low16_toNat]
  simp

theorem swappedBytes_toNat (v : Word) :
    (v.extractLsb' 0 8 ++ v.extractLsb' 8 8).toNat = v.toNat % 0x100 * 0x100 + v.toNat / 0x100 % 0x100 := by
  rw [append_toNat, extract_toNat, extract_toNat]
  simp

/-- Bit 15 is the sign of the low 16 bits. -/
theorem sign16_select_eq (v a b : Word) :
    (if v.getLsbD 15 then a else b) = if v.toNat % 0x10000 < 0x8000 then b else a := by
  have hsign : v.getLsbD 15 = true ↔ ¬ v.toNat % 0x10000 < 0x8000 := by
    rw [getLsbD_div, decide_eq_true_iff]
    omega
  simp only [hsign, ite_not]

/-! ### The ways these instructions end -/

/-- An instruction that ends as a register result completes with the value its bits make. -/
theorem completes_of_toReg {i : Instr} {s : State} {rd : Reg} {x : Word} {n : Nat}
    (hexec : exec i s = .next (toReg rd x s)) (hvalue : x.toNat = n) :
    Completes i s (WritesReg rd (BitVec.ofNat 24 n) s) :=
  ⟨toReg rd x s, hexec, eq_ofNat_of_toNat x n hvalue ▸ toReg_writesReg rd x s⟩

/-- A load of SP drops bits 1:0, arms NMI and is otherwise the ordinary end (R215, R216, R47). -/
theorem loadSp_eq (s : State) {v : Word} {n : Nat} (hvalue : v.toNat = n) :
    loadSp v s =
      { s with sp := BitVec.ofNat 24 (n / 4 * 4), pc := s.pc + 2, ext := .none, nmiArmed := true } := by
  rw [← eq_ofNat_of_toNat (align4 v) (n / 4 * 4) (by rw [align4_toNat, hvalue])]
  rfl

/-- `ld %rd,sign7` with at most one `ext` is a register result (R184). -/
theorem exec_ldImm {s : State} (rd : Reg) {sign7 : BitVec 7} {x : BitVec 16} (hx : s.ext.sign16 sign7 = .next x) :
    exec (.ldImm rd sign7) s = .next (toReg rd (zext24 x) s) := by
  change bindRes (s.ext.sign16 sign7) _ = _
  rw [hx, bindRes_next]

/-- Settles O11: each value is the reading of its bit fields; `cv.ls` selects on bit 15. -/
theorem registerTransferResults : Obligations.RegisterTransferResults := by
  intro s rd rs
  refine ⟨completes_of_toReg rfl (zext24_signExtend_lowByte_toNat _), completes_of_toReg rfl ?ldub,
    completes_of_toReg rfl ?ld, completes_of_toReg rfl rfl, completes_of_toReg rfl (signExtend_lowByte_toNat _),
    completes_of_toReg rfl (signExtend_low16_toNat _), completes_of_toReg rfl (lowByte_append_low16_toNat _ _),
    completes_of_toReg rfl ?cvla, ⟨_, rfl, ?cvls⟩, completes_of_toReg rfl ?swap⟩
  case ldub =>
    rw [setWidth_byte_toNat, extract_toNat]
    simp
  case ld => rw [zext24_toNat, low16_toNat]
  case cvla =>
    have hv := (s.reg rs).isLt
    rw [setWidth_byte_toNat, extract_toNat]
    omega
  case cvls =>
    rw [← sign16_select_eq]
    exact toReg_writesReg rd _ s
  case swap => rw [zext24_toNat, swappedBytes_toNat]

/-- Settles O12: the immediate loads and the read of SP are register results, the writes of SP are loads of SP. -/
theorem immediateAndStackPointerLoads : Obligations.ImmediateAndStackPointerLoads := by
  intro s r imm7
  refine ⟨fun hext => ?ldImm, completes_of_toReg rfl (imm24_toNat imm7 s.ext),
    completes_of_toReg rfl (align4_toNat s.sp), congrArg _ (loadSp_eq s rfl),
    congrArg _ (loadSp_eq s (imm24_toNat imm7 s.ext))⟩
  case ldImm =>
    obtain ⟨x, hx, hvalue⟩ := sign16_next imm7 s hext
    exact completes_of_toReg (exec_ldImm r hx) (by rw [zext24_toNat, hvalue])

/-- Settles O14: a load that keeps its base ends as a register result with the datum it reads. -/
theorem plainLoadResults : Obligations.PlainLoadResults := by
  intro s rd rb imm7 v f hf hal hload
  exact ⟨toReg rd (loadedValue f.kind v) s, (exec_plainLoad hf).trans (loadFrom_completes hal hload),
    toReg_writesReg rd _ s⟩

end Sys2Proof.Machine
end

section
/-!
PROOF of O13 and O18. The read of PC looks only at the kind of the slot. A modifying form of SP whose step passes the
check is a load or a store with one update of SP before the ordinary end, and neither end says anything of SP.
-/

namespace Sys2Proof.Machine

/-! ### The read of PC (R213) -/

/-- In the slot of a delayed jump the read of PC is a register result (R213). -/
theorem exec_ldaRdPc_of_jumpSlot {s : State} {d : DelayPending} (rd : Reg) (hslot : s.delay = some d)
    (hkind : d.kind = .jump) : exec (.ldaRdPc rd) s = .next (toReg rd (s.pc + 2) s) := by
  obtain ⟨target, kind⟩ := d
  obtain rfl : kind = .jump := hkind
  change execLdaRdPc rd s = _
  rw [execLdaRdPc, hslot]

/-- Outside a slot, and in the slot of a delayed call or return, the read of PC stops (R213). -/
theorem exec_ldaRdPc_elsewhere {s : State} (rd : Reg) (h : ¬ ∃ d, s.delay = some d ∧ d.kind = .jump) :
    exec (.ldaRdPc rd) s = .fault .pcReadOutsideDelaySlot := by
  change execLdaRdPc rd s = _
  unfold execLdaRdPc
  split
  · next hslot => exact absurd ⟨_, hslot, rfl⟩ h
  · rfl
  · rfl

/-- Settles O13: by the kind of the slot, if there is one. -/
theorem programCounterRead : Obligations.ProgramCounterRead := by
  intro s rd
  split
  · next hjump =>
    obtain ⟨d, hslot, hkind⟩ := hjump
    exact ⟨_, exec_ldaRdPc_of_jumpSlot rd hslot hkind, toReg_writesReg rd _ s⟩
  · next helse => exact exec_ldaRdPc_elsewhere rd helse

/-! ### What each modifying form of SP executes (R230 to R236) -/

theorem spForm_eq (s : State) (i : Instr) (m : ModifyMode) :
    spForm s i m =
      { instr := i, kind := .address, address := m.address s.sp (spStep s)
        base := align4 (m.after s.sp (spStep s)) } := by
  rw [spForm, spStep_eq]

section
variable {s : State} {r : Reg} {f : ModifyForm}

theorem spStep_passes (hstep : stepNat 4 s.ext % 4 = 0) : ¬ spStepMisaligned s = true :=
  fun h => spStepMisaligned_iff.mp h hstep

/-- A load through SP is a load that updates SP, if its step keeps SP a multiple of 4. -/
theorem exec_spLoad (hstep : stepNat 4 s.ext % 4 = 0) (hf : f ∈ spLoads s r) :
    exec f.instr s = loadFrom .address r f.address ({ · with sp := f.base }) s := by
  simp only [spLoads, spForm_eq] at hf
  fin_cases hf
  · exact if_neg (spStep_passes hstep)
  · exact if_neg (spStep_passes hstep)
  · rfl

/-- A store through SP is a store that updates SP, if its step keeps SP a multiple of 4. -/
theorem exec_spStore (hstep : stepNat 4 s.ext % 4 = 0) (hf : f ∈ spStores s r) :
    exec f.instr s = storeTo .address r f.address ({ · with sp := f.base }) s := by
  simp only [spStores, spForm_eq] at hf
  fin_cases hf
  · exact if_neg (spStep_passes hstep)
  · exact if_neg (spStep_passes hstep)
  · rfl

end

/-! ### The ends with SP updated -/

section
variable {except : List Reg} {s t : State}

/-- The plain end says nothing of SP. -/
theorem EndsPlainly.withSp (h : EndsPlainly except s t) (b : Word) : EndsPlainly except s { t with sp := b } where
  system := ⟨h.system.regs, { h.system.core with }, { h.system.environment with }⟩
  hidden := ⟨{ h.hidden.acceptance with }, h.hidden.delay⟩
  draws := { h.draws with }
  memory := h.memory
  advances := h.advances

/-- The end of a store says nothing of SP. -/
theorem StoresAndEnds.withSp {w : Width} {a : Word} {v : BitVec 32} (h : StoresAndEnds except w a v s t) (b : Word) :
    StoresAndEnds except w a v s { t with sp := b } where
  store := h.store.of_agree rfl ⟨rfl, rfl, rfl, rfl, rfl, rfl, rfl⟩
  regs := h.regs
  psr := h.psr
  environment := { h.environment with }
  hidden := ⟨{ h.hidden.acceptance with }, h.hidden.delay⟩
  draws := { h.draws with }
  advances := h.advances

end

/-- Settles O18: a load ends as a register result, a store as a plain store, each with SP updated. -/
theorem stackPointerModifyingTransfers : Obligations.StackPointerModifyingTransfers := by
  intro s r hstep
  refine ⟨fun v f hf hal hload => ?load, fun f hf hal hstore => ?store⟩
  case load =>
    obtain ⟨hreg, hpsr, -, hends⟩ := toReg_writesReg r (loadedValue .address v) s
    exact ⟨_, (exec_spLoad hstep hf).trans (loadFrom_completes hal hload), hreg, rfl, hpsr, hends.withSp f.base⟩
  case store =>
    obtain ⟨u, hu, hexec⟩ := storeTo_completes (rs := r) (upd := ({ · with sp := f.base })) hal hstore
    exact ⟨_, (exec_spStore hstep hf).trans hexec, hu.advance.withSp f.base, rfl⟩

end Sys2Proof.Machine
end

section
/-!
PROOF of O21. Every logic instruction ends as a logic result; what is left to say is the value of its 16-bit
operation on the operands read as numbers.
-/

namespace Sys2Proof.Machine

/-! ### How the logic instructions end (R250) -/

/-- A logic result clears V: it is the flags of an exact value that does not overflow. -/
theorem logicResult_logicWritten (rd : Reg) (x : BitVec 16) (s : State) :
    LogicWritten rd x.toNat s (logicResult rd x s) := by
  have hvalue : zext24 x = BitVec.ofNat 24 x.toNat := eq_ofNat_of_toNat _ _ (zext24_toNat x)
  have hflags : s.psr.withVZN x false = flagsVZN s.psr x.toNat 0 := withVZN_eq s.psr x false 0 rfl
  unfold logicResult
  rw [hvalue, hflags]
  exact toReg_writesRegAndPsr rd _ _ s

/-- An instruction that ends as a logic result completes with the value its operation makes. -/
theorem completes_of_logicResult {i : Instr} {s : State} {rd : Reg} {x : BitVec 16} {n : Nat}
    (hexec : exec i s = .next (logicResult rd x s)) (hvalue : x.toNat = n) :
    Completes i s (LogicWritten rd n s) :=
  ⟨_, hexec, hvalue ▸ logicResult_logicWritten rd x s⟩

/-- A `sign7` form whose immediate is allowed ends as a logic result (R143). -/
theorem completes_of_logicImmediate {i : Instr} {s : State} {rd : Reg} {sign7 : BitVec 7} {v : BitVec 16} {n : Nat}
    {op : BitVec 16 → BitVec 16} (himm : s.ext.sign16 sign7 = .next v)
    (hexec : exec i s = bindRes (s.ext.sign16 sign7) fun v => .next (logicResult rd (op v) s))
    (hvalue : (op v).toNat = n) : Completes i s (LogicWritten rd n s) :=
  completes_of_logicResult (by rw [hexec, himm, bindRes_next]) hvalue

/-! ### The operations as numbers -/

section
variable {x y : BitVec 16} {a b : Nat}

theorem and16_toNat (hx : x.toNat = a) (hy : y.toNat = b) : (x &&& y).toNat = a &&& b := by
  rw [BitVec.toNat_and, hx, hy]

theorem or16_toNat (hx : x.toNat = a) (hy : y.toNat = b) : (x ||| y).toNat = a ||| b := by
  rw [BitVec.toNat_or, hx, hy]

theorem xor16_toNat (hx : x.toNat = a) (hy : y.toNat = b) : (x ^^^ y).toNat = a ^^^ b := by
  rw [BitVec.toNat_xor, hx, hy]

theorem not16_toNat (hx : x.toNat = a) : (~~~ x).toNat = 0xffff - a := by
  rw [BitVec.toNat_not, hx]

end

/-- Settles O21: each form is a logic result, with the operands of R144 or with `rd` and the immediate of R143. -/
theorem logicResults : Obligations.LogicResults := by
  intro s rd rs sign7
  have ha := firstOperand16_toNat s rd rs
  have hb := secondOperand16_toNat s rs
  refine ⟨completes_of_logicResult rfl (and16_toNat ha hb), completes_of_logicResult rfl (or16_toNat ha hb),
    completes_of_logicResult rfl (xor16_toNat ha hb), completes_of_logicResult rfl (not16_toNat hb), fun hext => ?_⟩
  have hx := low16_toNat (s.reg rd)
  obtain ⟨v, himm, hy⟩ := sign16_next sign7 s hext
  exact ⟨completes_of_logicImmediate himm rfl (and16_toNat hx hy),
    completes_of_logicImmediate himm rfl (or16_toNat hx hy),
    completes_of_logicImmediate himm rfl (xor16_toNat hx hy),
    completes_of_logicImmediate himm rfl (not16_toNat hy)⟩

end Sys2Proof.Machine
end

section
/-!
PROOF of O25. The operation a conditional form runs is the plain one with C put back, which is said once for each of
the ends the thirteen instructions have.
-/

namespace Sys2Proof.Machine

/-! ### The ends with C kept (R250, R272) -/

/-- `u` with C as it is in `s`. -/
def restoreCarry (s u : State) : State := { u with psr := { u.psr with c := s.psr.c } }

section
variable (rd rs : Reg) (s : State)

/-- A logic result never writes C (R250). -/
theorem logicResult_eq_restoreCarry (res : BitVec 16) :
    logicResult rd res s = restoreCarry s (logicResult rd res s) := rfl

theorem arithResultKeepC_eq_restoreCarry (r : Arith16) :
    arithResultKeepC rd r s = restoreCarry s (arithResult rd r s) := rfl

theorem compareResultKeepC_eq_restoreCarry (r : Arith16) :
    compareResultKeepC r s = restoreCarry s (compareResult r s) := rfl

/-- A 24-bit result writes no flag (R298). -/
theorem toReg_eq_restoreCarry (v : Word) : toReg rd v s = restoreCarry s (toReg rd v s) := rfl

theorem compareZero24_eq_restoreCarry :
    compareZero24 rd rs s =
      restoreCarry s (compareResult24 (firstOperand24 s (s.reg rd) rs) (secondOperand24 s rs) s) := rfl

end

/-! ### A conditional form that executes -/

theorem onCarry_runs {want : Bool} {run : State → State} {s : State} (h : s.psr.c = want) :
    onCarry want run s = run s :=
  if_pos h

/-- Where its condition holds, a conditional form answers the next state of the plain form with C put back. -/
def ExecutesKeepingCarry (s : State) (f : ConditionalForm) : Prop :=
  ∃ u, exec f.plain s = .next u ∧
    (s.psr.c = true → exec f.ifCarry s = .next (restoreCarry s u)) ∧
    (s.psr.c = false → exec f.ifNoCarry s = .next (restoreCarry s u))

/-- It is enough that the operation both forms run is the plain one with C put back. -/
theorem ExecutesKeepingCarry.of_run {s u : State} {f : ConditionalForm} {run : State → State}
    (hplain : exec f.plain s = .next u) (hcarry : exec f.ifCarry s = .next (onCarry true run s))
    (hnoCarry : exec f.ifNoCarry s = .next (onCarry false run s)) (hrun : run s = restoreCarry s u) :
    ExecutesKeepingCarry s f :=
  ⟨u, hplain, fun hc => by rw [hcarry, onCarry_runs hc, hrun], fun hc => by rw [hnoCarry, onCarry_runs hc, hrun]⟩

/-- The thirteen instructions by their ends: four logic results, four 16-bit sums and differences, two compares, two
24-bit results and the 24-bit compare. -/
theorem executesKeepingCarry_of_conditionalForm (s : State) (rd rs : Reg) :
    ∀ f ∈ conditionalForms rd rs, ExecutesKeepingCarry s f := by
  simp only [conditionalForms, List.forall_mem_cons]
  refine ⟨?and, ?or, ?xor, ?not, ?add, ?adc, ?sub, ?sbc, ?cmp, ?cmc, ?adda, ?suba, ?cmpa, List.forall_mem_nil _⟩
  case and | or | xor | not => exact .of_run rfl rfl rfl (logicResult_eq_restoreCarry rd s _)
  case add | adc | sub | sbc => exact .of_run rfl rfl rfl (arithResultKeepC_eq_restoreCarry rd s _)
  case cmp | cmc => exact .of_run rfl rfl rfl (compareResultKeepC_eq_restoreCarry s _)
  case adda | suba => exact .of_run rfl rfl rfl (toReg_eq_restoreCarry rd s _)
  case cmpa => exact .of_run rfl rfl rfl (compareZero24_eq_restoreCarry rd rs s)

/-- Settles O25: by the end of each instruction, in `executesKeepingCarry_of_conditionalForm`. -/
theorem conditionalFormsExecute : Obligations.ConditionalFormsExecute :=
  fun s rd rs => executesKeepingCarry_of_conditionalForm s rd rs

end Sys2Proof.Machine
end

section
/-!
PROOF of O22, O23 and O24. An instruction of this family ends as a 16-bit result or as a compare, with the flags
`Add16` or `Sub16` makes; both are read as numbers by the laws of the flags.
-/

namespace Sys2Proof.Machine

/-! ### The ends with the four flags (R270, R271) -/

section
variable {x y : BitVec 16} {a b : Nat}

theorem arithResult_sumWritten (rd : Reg) (hx : x.toNat = a) (hy : y.toNat = b) (cin : Bool) (s : State) :
    SumWritten rd a b cin.toNat s (arithResult rd (add16 x y cin) s) := by
  subst hx hy
  unfold SumWritten arithResult
  rw [← add16_flags, ← eq_ofNat_of_toNat (zext24 _) _ ((zext24_toNat _).trans (add16_value x y cin))]
  exact toReg_writesRegAndPsr rd _ _ s

theorem arithResult_differenceWritten (rd : Reg) (hx : x.toNat = a) (hy : y.toNat = b) (bin : Bool) (s : State) :
    DifferenceWritten rd a b bin.toNat s (arithResult rd (sub16 x y bin) s) := by
  subst hx hy
  unfold DifferenceWritten arithResult
  rw [← sub16_flags, ← eq_ofNat_of_toNat (zext24 _) _ ((zext24_toNat _).trans (sub16_value x y bin))]
  exact toReg_writesRegAndPsr rd _ _ s

theorem compareResult_writesPsr (hx : x.toNat = a) (hy : y.toNat = b) (bin : Bool) (s : State) :
    WritesPsr (differenceFlags s.psr a b bin.toNat) s (compareResult (sub16 x y bin) s) := by
  subst hx hy
  rw [← sub16_flags]
  exact advance_writesPsr _ s

end

/-! ### The immediate forms whose immediate is allowed (R141, R143) -/

theorem arithImm_next (op : BitVec 16 → BitVec 16 → Bool → Arith16) (rd : Reg) (cin : Bool) {imm7 : BitVec 7}
    {s : State} {v : BitVec 16} (himm : s.ext.imm16 imm7 = .next v) :
    arithImm op rd imm7 cin s = .next (arithResult rd (op (low16 (s.reg rd)) v cin) s) := by
  rw [arithImm, himm, bindRes_next]

theorem compareImm_next (rd : Reg) (cin : Bool) {sign7 : BitVec 7} {s : State} {v : BitVec 16}
    (himm : s.ext.sign16 sign7 = .next v) :
    compareImm rd sign7 cin s = .next (compareResult (sub16 (low16 (s.reg rd)) v cin) s) := by
  rw [compareImm, himm, bindRes_next]

/-- Settles O22: each form is a 16-bit result of the operands of R144. -/
theorem addSubtractRegisterResults : Obligations.AddSubtractRegisterResults := by
  intro s rd rs
  have ha := firstOperand16_toNat s rd rs
  have hb := secondOperand16_toNat s rs
  exact ⟨⟨_, rfl, arithResult_sumWritten rd ha hb false s⟩, ⟨_, rfl, arithResult_sumWritten rd ha hb s.psr.c s⟩,
    ⟨_, rfl, arithResult_differenceWritten rd ha hb false s⟩,
    ⟨_, rfl, arithResult_differenceWritten rd ha hb s.psr.c s⟩⟩

/-- Settles O23: each form is a 16-bit result of `rd` and the immediate of R141. -/
theorem addSubtractImmediateResults : Obligations.AddSubtractImmediateResults := by
  intro s rd imm7 hext
  have ha := low16_toNat (s.reg rd)
  obtain ⟨v, himm, hb⟩ := imm16_next imm7 s hext
  exact ⟨⟨_, arithImm_next add16 rd false himm, arithResult_sumWritten rd ha hb false s⟩,
    ⟨_, arithImm_next add16 rd s.psr.c himm, arithResult_sumWritten rd ha hb s.psr.c s⟩,
    ⟨_, arithImm_next sub16 rd false himm, arithResult_differenceWritten rd ha hb false s⟩,
    ⟨_, arithImm_next sub16 rd s.psr.c himm, arithResult_differenceWritten rd ha hb s.psr.c s⟩⟩

/-- Settles O24: each form is a compare, of the operands of R144 or of `rd` and the immediate of R143. -/
theorem compareResults : Obligations.CompareResults := by
  intro s rd rs sign7
  have ha := firstOperand16_toNat s rd rs
  have hb := secondOperand16_toNat s rs
  refine ⟨⟨_, rfl, compareResult_writesPsr ha hb false s⟩, ⟨_, rfl, compareResult_writesPsr ha hb s.psr.c s⟩,
    fun hext => ?_⟩
  have hx := low16_toNat (s.reg rd)
  obtain ⟨v, himm, hy⟩ := sign16_next sign7 s hext
  exact ⟨⟨_, compareImm_next rd false himm, compareResult_writesPsr hx hy false s⟩,
    ⟨_, compareImm_next rd s.psr.c himm, compareResult_writesPsr hx hy s.psr.c s⟩⟩

end Sys2Proof.Machine
end

section
/-!
PROOF of O27 and O28. The 24-bit sum and difference are those of the numbers modulo 2^24, and dropping the low two
bits commutes with that modulus.
-/

namespace Sys2Proof.Machine

/-! ### The 24-bit operations as numbers (R298) -/

section
variable {x y : Word} {a b : Nat}

theorem add24_eq (hx : x.toNat = a) (hy : y.toNat = b) : x + y = BitVec.ofNat 24 (a + b) := by
  rw [← BitVec.toNat_inj, BitVec.toNat_add, BitVec.toNat_ofNat, hx, hy]

theorem sub24_eq (hx : x.toNat = a) (hy : y.toNat = b) : x - y = BitVec.ofNat 24 (a + 0x1000000 - b) := by
  have hlt : b < 2 ^ 24 := hy ▸ y.isLt
  rw [← BitVec.toNat_inj, BitVec.toNat_sub, BitVec.toNat_ofNat, hx, hy]
  omega

theorem withCompare24_eq (p : Psr) (hx : x.toNat = a) (hy : y.toNat = b) :
    p.withCompare24 x y = { p with c := decide (a < b), z := decide (a = b) } := by
  have hzero : (x - y == 0) = decide (a = b) := by
    rw [Bool.eq_iff_iff, beq_iff_eq, decide_eq_true_iff, ← hx, ← hy, BitVec.toNat_inj, BitVec.ofNat_eq_ofNat,
      BitVec.sub_eq_iff_eq_add, BitVec.zero_add]
  rw [Psr.withCompare24, hzero, hx, hy]

end

/-- A result reduced modulo 2^24 loses the same low bits as the exact one. -/
theorem align4_ofNat (n : Nat) : align4 (BitVec.ofNat 24 n) = BitVec.ofNat 24 (n / 4 * 4) := by
  rw [← BitVec.toNat_inj, align4_toNat, BitVec.toNat_ofNat, BitVec.toNat_ofNat]
  omega

/-! ### How the 24-bit instructions end -/

section
variable {i : Instr} {s : State} {n : Nat}

theorem completes_of_toReg_ofNat {rd : Reg} {v : Word} (hexec : exec i s = .next (toReg rd v s))
    (hvalue : v = BitVec.ofNat 24 n) : Completes i s (WritesReg rd (BitVec.ofNat 24 n) s) :=
  ⟨_, hexec, hvalue ▸ toReg_writesReg rd v s⟩

/-- A result for SP loses bits 1:0 (R298). -/
theorem completes_of_toSp {v : Word} (hexec : exec i s = .next (toSp v s)) (hvalue : v = BitVec.ofNat 24 n) :
    Completes i s (WritesSp (BitVec.ofNat 24 (n / 4 * 4)) s) :=
  ⟨_, hexec, by rw [← align4_ofNat, ← hvalue]; exact advance_writesSp v s⟩

theorem completes_of_compareResult24 {x y : Word} {a b : Nat} (hexec : exec i s = .next (compareResult24 x y s))
    (hx : x.toNat = a) (hy : y.toNat = b) :
    Completes i s (WritesPsr { s.psr with c := decide (a < b), z := decide (a = b) } s) :=
  ⟨_, hexec, by rw [← withCompare24_eq s.psr hx hy]; exact advance_writesPsr _ s⟩

end

/-- Settles O27: each form is a register result or a result for SP, of a 24-bit sum or difference. -/
theorem addressArithmeticResults : Obligations.AddressArithmeticResults := by
  intro s rd rs imm7
  have ha := firstOperand24_toNat s (s.reg rd) rs
  have hp := firstOperand24_toNat s s.sp rs
  have hb := secondOperand24_toNat s rs
  have hi := imm24_toNat imm7 s.ext
  exact ⟨completes_of_toReg_ofNat rfl (add24_eq ha hb), completes_of_toReg_ofNat rfl (sub24_eq ha hb),
    completes_of_toReg_ofNat rfl (add24_eq rfl hi), completes_of_toReg_ofNat rfl (sub24_eq rfl hi),
    completes_of_toSp rfl (add24_eq hp hb), completes_of_toSp rfl (sub24_eq hp hb),
    completes_of_toSp rfl (add24_eq rfl hi), completes_of_toSp rfl (sub24_eq rfl hi)⟩

/-- Settles O28: both forms write the flags of the 24-bit compare and nothing else. -/
theorem addressCompareResults : Obligations.AddressCompareResults := by
  intro s rd rs imm7
  exact ⟨completes_of_compareResult24 rfl (firstOperand24_toNat s (s.reg rd) rs) (secondOperand24_toNat s rs),
    completes_of_compareResult24 rfl rfl (imm24_toNat imm7 s.ext)⟩

end Sys2Proof.Machine
end

section
/-!
PROOF of O30 and O31, from O22 and O24. After `cmp` the carry is the unsigned order, Z the equality and N xor V the
signed order. In a two-word sum the second step sees the operands of the start and the carry of the first step.
-/

namespace Sys2Proof.Machine

/-! ### An instruction that is known to have completed -/

/-- The one next state of an instruction that completes has what is said of it. -/
theorem Completes.of_next {i : Instr} {s t : State} {P : State → Prop} (h : Completes i s P)
    (hexec : exec i s = .next t) : P t := by
  obtain ⟨u, hu, hP⟩ := h
  rw [hexec] at hu
  cases hu
  exact hP

section
variable {s : State} (hext : s.ext = .none)
include hext

/-- Without `ext` the first operand is `rd` (R144). -/
theorem firstNat16_of_noExt (rd rs : Reg) : firstNat16 s rd rs = (s.reg rd).toNat % 0x10000 := by
  rw [firstNat16, hext]

/-- Without `ext` the second operand is `rs` (R144). -/
theorem secondNat16_of_noExt (rs : Reg) : secondNat16 s rs = (s.reg rs).toNat % 0x10000 := by
  rw [secondNat16, hext]

end

/-! ### The flags of a comparison as orders (R315 item 3) -/

section
variable {a b : Nat} (p : Psr)

/-- C of a difference is its borrow (R271). -/
theorem differenceFlags_c (bin : Nat) : (differenceFlags p a b bin).c = true ↔ a < b + bin :=
  decide_eq_true_iff

theorem differenceFlags_z (ha : a < 0x10000) (hb : b < 0x10000) : (differenceFlags p a b 0).z = true ↔ a = b := by
  simp only [differenceFlags, flagsVZN, decide_eq_true_iff]
  rw [differenceNat]
  omega

/-- The sign of the 16-bit difference is wrong exactly where it overflows. -/
theorem differenceFlags_n_xor_v (ha : a < 0x10000) (hb : b < 0x10000) :
    ((differenceFlags p a b 0).n ^^ (differenceFlags p a b 0).v) = true ↔ signed16 a < signed16 b := by
  simp only [differenceFlags, flagsVZN, bne_iff_ne, ne_eq, decide_eq_decide]
  simp only [differenceNat, signed16]
  split <;> split <;> omega

end

/-- The conditions on C, Z and N xor V are the comparisons those three decide (R344). -/
theorem conditions_of_orders {p : Psr} {a b : Nat} (hc : p.c = true ↔ a < b) (hz : p.z = true ↔ a = b)
    (hnv : (p.n ^^ p.v) = true ↔ signed16 a < signed16 b) (hsigned : signed16 a = signed16 b ↔ a = b) :
    (Cond.gt.holds p ↔ signed16 b < signed16 a) ∧ (Cond.ge.holds p ↔ signed16 b ≤ signed16 a) ∧
    (Cond.lt.holds p ↔ signed16 a < signed16 b) ∧ (Cond.le.holds p ↔ signed16 a ≤ signed16 b) ∧
    (Cond.ugt.holds p ↔ b < a) ∧ (Cond.uge.holds p ↔ b ≤ a) ∧
    (Cond.ult.holds p ↔ a < b) ∧ (Cond.ule.holds p ↔ a ≤ b) ∧
    (Cond.eq.holds p ↔ a = b) ∧ (Cond.ne.holds p ↔ a ≠ b) := by
  simp only [Cond.holds, Bool.and_eq_true, Bool.or_eq_true, Bool.not_eq_true', ← Bool.not_eq_true, hc, hz, hnv, iff_self,
    true_and, and_true]
  omega

/-- A 16-bit number is determined by its signed reading. -/
theorem signed16_inj {a b : Nat} (ha : a < 0x10000) (hb : b < 0x10000) : signed16 a = signed16 b ↔ a = b := by
  simp only [signed16]
  split <;> split <;> omega

/-- Settles O30: the flags of the compare, read as orders, decide the ten conditions. -/
theorem comparisonDecidesConditions : Obligations.ComparisonDecidesConditions := by
  intro s t rd rs hext hexec a b
  have ha : a < 0x10000 := Nat.mod_lt _ (by decide)
  have hb : b < 0x10000 := Nat.mod_lt _ (by decide)
  obtain ⟨hcmp, -⟩ := compareResults s rd rs 0
  obtain ⟨hpsr, -⟩ := hcmp.of_next hexec
  rw [firstNat16_of_noExt hext, secondNat16_of_noExt hext] at hpsr
  rw [hpsr]
  exact conditions_of_orders (differenceFlags_c s.psr 0) (differenceFlags_z s.psr ha hb)
    (differenceFlags_n_xor_v s.psr ha hb) (signed16_inj ha hb)

/-! ### Two steps on the halves of a register pair (R315 item 4) -/

section
variable {s t u : State} {lo hi : Reg} {r r' : Nat} {p p' : Psr}

/-- After a register result the next instruction finds no `ext` and every other register as it was. -/
theorem WritesRegAndPsr.next_sees {v : Word} (h : WritesRegAndPsr lo v p s t) :
    t.psr = p ∧ t.ext = .none ∧ ∀ reg, lo ≠ reg → t.reg reg = s.reg reg := by
  obtain ⟨-, hpsr, -, hends⟩ := h
  obtain ⟨-, hext⟩ := hends.advances
  exact ⟨hpsr, hext, fun reg hne => hends.system.regs reg (by simpa using hne.symm)⟩

/-- Two results in different registers are read back side by side. -/
theorem registerPair_of_results (hlow : WritesRegAndPsr lo (BitVec.ofNat 24 r) p s t)
    (hhigh : WritesRegAndPsr hi (BitVec.ofNat 24 r') p' t u) (hne : lo ≠ hi) :
    (u.reg hi).toNat % 0x10000 * 0x10000 + (u.reg lo).toNat % 0x10000 =
      r' % 0x10000 * 0x10000 + r % 0x10000 := by
  obtain ⟨-, -, hkeep⟩ := hhigh.next_sees
  obtain ⟨hlo, -⟩ := hlow
  obtain ⟨hhi, -⟩ := hhigh
  rw [hkeep lo hne.symm, hlo, hhi, BitVec.toNat_ofNat, BitVec.toNat_ofNat]
  omega

end

section
variable {s : State} (rd rs : Reg) (hext : s.ext = .none)
include hext

/-- Without `ext` the four instructions work on `rd` and `rs` themselves. -/
theorem addSubtractRegisterResults_of_noExt :
    let a := (s.reg rd).toNat % 0x10000
    let b := (s.reg rs).toNat % 0x10000
    Completes (.addRR rd rs) s (SumWritten rd a b 0 s) ∧
    Completes (.adcRR rd rs) s (SumWritten rd a b s.psr.c.toNat s) ∧
    Completes (.subRR rd rs) s (DifferenceWritten rd a b 0 s) ∧
    Completes (.sbcRR rd rs) s (DifferenceWritten rd a b s.psr.c.toNat s) := by
  rw [← firstNat16_of_noExt hext rd rs, ← secondNat16_of_noExt hext rs]
  exact addSubtractRegisterResults s rd rs

end

/-! ### Carry and borrow between the halves -/

/-- C of a sum is its carry (R270). -/
theorem sumFlags_c (p : Psr) (a b cin : Nat) : (sumFlags p a b cin).c = true ↔ 0xffff < a + b + cin :=
  decide_eq_true_iff

theorem bool_toNat_of_iff {c : Bool} {q : Prop} [Decidable q] (h : c = true ↔ q) : c.toNat = if q then 1 else 0 := by
  split
  · next hq => rw [h.mpr hq, Bool.toNat_true]
  · next hq => rw [Bool.eq_false_iff.mpr (mt h.mp hq), Bool.toNat_false]

section
variable {x y x' y' : Nat} (p p' : Psr)

/-- The carry of the low halves makes the 32-bit sum and its carry out of the two 16-bit ones. -/
theorem twoWordSum (hx : x < 0x10000) (hy : y < 0x10000) :
    let cin := (sumFlags p x y 0).c.toNat
    (x' + y' + cin) % 0x10000 % 0x10000 * 0x10000 + (x + y + 0) % 0x10000 % 0x10000 =
        (x' * 0x10000 + x + (y' * 0x10000 + y)) % 0x100000000 ∧
      ((sumFlags p' x' y' cin).c = true ↔ 0xffffffff < x' * 0x10000 + x + (y' * 0x10000 + y)) := by
  intro cin
  have hcin : cin = if 0xffff < x + y + 0 then 1 else 0 := bool_toNat_of_iff (sumFlags_c p x y 0)
  rw [sumFlags_c]
  split at hcin <;> omega

/-- The borrow of the low halves makes the 32-bit difference and its borrow out of the two 16-bit ones. -/
theorem twoWordDifference (hx : x < 0x10000) (hy : y < 0x10000) (hx' : x' < 0x10000) (hy' : y' < 0x10000) :
    let bin := (differenceFlags p x y 0).c.toNat
    differenceNat x' y' bin % 0x10000 * 0x10000 + differenceNat x y 0 % 0x10000 =
        (x' * 0x10000 + x + 0x100000000 - (y' * 0x10000 + y)) % 0x100000000 ∧
      ((differenceFlags p' x' y' bin).c = true ↔ x' * 0x10000 + x < y' * 0x10000 + y) := by
  intro bin
  have hbin : bin = if x < y + 0 then 1 else 0 := bool_toNat_of_iff (differenceFlags_c p 0)
  rw [differenceFlags_c, differenceNat, differenceNat]
  split at hbin <;> omega

end

/-- Settles O31: the second step sees the high halves as they were and the carry or borrow of the low ones. -/
theorem multiWordArithmetic : Obligations.MultiWordArithmetic := by
  intro s t u lo hi lo' hi' hext hne hne'
  have hlt (n : Nat) : n % 0x10000 < 0x10000 := Nat.mod_lt n (by decide)
  obtain ⟨add, -, sub, -⟩ := addSubtractRegisterResults_of_noExt lo lo' hext
  refine ⟨fun hadd hadc => ?sum, fun hsub hsbc => ?difference⟩
  case sum =>
    have hlow := add.of_next hadd
    obtain ⟨hpsr, hext', hkeep⟩ := hlow.next_sees
    obtain ⟨-, adc, -, -⟩ := addSubtractRegisterResults_of_noExt hi hi' hext'
    have hhigh := adc.of_next hadc
    rw [hkeep hi hne, hkeep hi' hne', hpsr] at hhigh
    obtain ⟨hpsr', -⟩ := hhigh.next_sees
    rw [registerPair_of_results hlow hhigh hne, hpsr']
    exact twoWordSum s.psr t.psr (hlt _) (hlt _)
  case difference =>
    have hlow := sub.of_next hsub
    obtain ⟨hpsr, hext', hkeep⟩ := hlow.next_sees
    obtain ⟨-, -, -, sbc⟩ := addSubtractRegisterResults_of_noExt hi hi' hext'
    have hhigh := sbc.of_next hsbc
    rw [hkeep hi hne, hkeep hi' hne', hpsr] at hhigh
    obtain ⟨hpsr', -⟩ := hhigh.next_sees
    rw [registerPair_of_results hlow hhigh hne, hpsr']
    exact twoWordDifference s.psr t.psr (hlt _) (hlt _) (hlt _) (hlt _)

end Sys2Proof.Machine
end

section
/-!
PROOF of O29. A shift form names a shift, and result and last bit out of the form are those of that shift, read as
numbers for every amount. How a shift ends is said once for the three of them, apart for an amount of 0.
-/

namespace Sys2Proof.Machine

/-! ### The three shifts as numbers (R321) -/

section
variable (v : BitVec 16) (k : Nat)

theorem signed16_eq_toInt : signed16 v.toNat = v.toInt := by
  rw [BitVec.toInt_eq_toNat_cond, signed16]
  split <;> split <;> omega

theorem srResult_toNat : (ShiftKind.sr.result v k).toNat = v.toNat / 2 ^ k := by
  rw [ShiftKind.result, BitVec.toNat_ushiftRight, Nat.shiftRight_eq_div_pow]

theorem saResult_toNat : (ShiftKind.sa.result v k).toNat = (signed16 v.toNat / 2 ^ k % 0x10000).toNat := by
  rw [ShiftKind.result, BitVec.sshiftRight, BitVec.toNat_ofInt, Int.shiftRight_eq_div_pow, signed16_eq_toInt]
  norm_cast

theorem slResult_toNat : (ShiftKind.sl.result v k).toNat = v.toNat * 2 ^ k % 0x10000 := by
  rw [ShiftKind.result, BitVec.toNat_shiftLeft, Nat.shiftLeft_eq]

/-- A shift by 0 bits keeps the value. -/
theorem shiftResult_zero (kind : ShiftKind) : kind.result v 0 = v := by
  cases kind with
  | sr => exact BitVec.ushiftRight_zero v
  | sa => exact BitVec.sshiftRight_zero
  | sl => exact BitVec.shiftLeft_zero v

end

/-- The flags of a shift: C as given, Z and N of the result. -/
theorem shiftFlags_eq (p : Psr) (res : BitVec 16) (c : Bool) :
    (p.withZN res).withC c = shiftFlags p res.toNat c := by
  have hzero : (res == 0) = decide (res.toNat = 0) := by
    rw [Bool.eq_iff_iff, beq_iff_eq, decide_eq_true_iff, BitVec.ofNat_eq_ofNat, ← BitVec.toNat_inj,
      BitVec.toNat_ofNat, Nat.zero_mod]
  rw [Psr.withZN, Psr.withC, shiftFlags, hzero, BitVec.msb_eq_decide]

/-! ### How a shift ends -/

section
variable (kind : ShiftKind) (rd : Reg) (x : Nat) (s : State)

/-- A 16-bit result with C given is written to `rd` and PSR. -/
theorem toReg_writesShift (res : BitVec 16) (c : Bool) :
    WritesRegAndPsr rd (BitVec.ofNat 24 res.toNat) (shiftFlags s.psr res.toNat c) s
      { toReg rd (zext24 res) s with psr := (s.psr.withZN res).withC c } := by
  rw [← eq_ofNat_of_toNat (zext24 res) _ (zext24_toNat res), ← shiftFlags_eq]
  exact toReg_writesRegAndPsr rd _ _ s

/-- An amount of 1 or more writes the result and the last bit out. -/
theorem shiftReg_writesRegAndPsr (hk : shiftBits x ≠ 0) :
    let v := low16 (s.reg rd)
    let res := (kind.result v (shiftBits x)).toNat
    WritesRegAndPsr rd (BitVec.ofNat 24 res) (shiftFlags s.psr res (kind.lastOut v (shiftBits x))) s
      (shiftReg kind rd x s) := by
  intro v res
  rw [shiftReg, shiftAmount_eq, if_neg hk]
  exact toReg_writesShift rd s (kind.result v (shiftBits x)) (kind.lastOut v (shiftBits x))

/-- An amount of 0 writes the value shifted and a C drawn there (log entry 8). -/
theorem shiftReg_drawsCarry (hk : shiftBits x = 0) :
    let v := (low16 (s.reg rd)).toNat
    (shiftReg kind rd x s).freeCount = s.freeCount + 1 ∧
      WritesRegAndPsr rd (BitVec.ofNat 24 v) (shiftFlags s.psr v (Config.freeCarry s.freeCount)) s
        { shiftReg kind rd x s with freeCount := s.freeCount } := by
  intro v
  rw [shiftReg, shiftAmount_eq, hk, if_pos rfl, shiftResult_zero]
  exact ⟨rfl, toReg_writesShift rd s (low16 (s.reg rd)) (Config.freeCarry s.freeCount)⟩

end

/-! ### The six forms (R322 to R327) -/

/-- A form executes as one of the three shifts of `rd`, and its numbers are those of that shift. -/
structure ShiftForm.Shifts (f : ShiftForm) (kind : ShiftKind) (rd : Reg) (s : State) : Prop where
  runs : exec f.instr s = .next (shiftReg kind rd f.operand s)
  result : ∀ k, (kind.result (low16 (s.reg rd)) k).toNat = f.result k
  lastOut : ∀ k, kind.lastOut (low16 (s.reg rd)) k = f.lastOut k

/-- The amount of a register form is `rs[15:0]`, that of an immediate form `imm7` alone (R320, R152). -/
theorem shifts_of_shiftForm (s : State) (rd rs : Reg) (imm7 : BitVec 7) :
    ∀ f ∈ shiftForms s rd rs imm7, ∃ kind, f.Shifts kind rd s := by
  simp only [shiftForms, ← low16_toNat, List.forall_mem_cons]
  refine ⟨⟨.sr, ?srRR⟩, ⟨.sr, ?srImm⟩, ⟨.sa, ?saRR⟩, ⟨.sa, ?saImm⟩, ⟨.sl, ?slRR⟩, ⟨.sl, ?slImm⟩,
    List.forall_mem_nil _⟩
  case srRR | srImm => exact ⟨rfl, srResult_toNat _, fun k => getLsbD_div _ (k - 1)⟩
  case saRR | saImm => exact ⟨rfl, saResult_toNat _, fun k => getLsbD_div _ (k - 1)⟩
  case slRR | slImm => exact ⟨rfl, slResult_toNat _, fun k => getLsbD_div _ (16 - k)⟩

/-- Settles O29: each form is one of the three shifts, which end by the amount, 0 or not. -/
theorem shiftResults : Obligations.ShiftResults := by
  intro s rd rs imm7 f hf k
  obtain ⟨kind, hruns, hresult, hlastOut⟩ := shifts_of_shiftForm s rd rs imm7 f hf
  refine ⟨fun hk => ⟨_, hruns, ?_⟩, fun hk => ⟨_, hruns, ?_⟩⟩
  · rw [← hresult, ← hlastOut]
    exact shiftReg_writesRegAndPsr kind rd f.operand s hk
  · rw [← low16_toNat]
    exact shiftReg_drawsCarry kind rd f.operand s hk

end Sys2Proof.Machine
end

section
/-!
PROOF of O20. Where a misaligned transfer is a fault, and which, is seen from the delayed branch and the debug mode
alone, and neither the access nor the update of the base touches those two.
-/

namespace Sys2Proof.Machine

/-- In `u` a misaligned transfer is this fault: in a slot that of R343, outside one in debug mode that of R463. -/
def MisalignedFaultsWith (fault : Fault) (u : State) : Prop :=
  u.delay ≠ none ∧ fault = .misalignedInDelaySlot ∨
    u.delay = none ∧ u.dcr.dm = true ∧ fault = .interruptInDebugMode

theorem raiseMisaligned_eq_fault {fault : Fault} {u : State} (h : MisalignedFaultsWith fault u) :
    raiseMisaligned u = .fault fault := by
  obtain ⟨hslot, rfl⟩ | ⟨hdelay, hmode, rfl⟩ := h
  · exact if_pos (Option.isSome_iff_ne_none.mpr hslot)
  · simp [raiseMisaligned, hdelay, hmode]

theorem MisalignedFaultsWith.of_works {fault : Fault} {s u : State} (h : MisalignedFaultsWith fault s)
    (hu : Works s u) : MisalignedFaultsWith fault u := by
  rwa [MisalignedFaultsWith, hu.delay, hu.mode]

section
variable {fault : Fault} {s : State} (hs : MisalignedFaultsWith fault s)
include hs

/-- A load that reads at the aligned address still stops for its misaligned one. -/
theorem MisalignedFaultsWith.loadFrom {t : Transfer} {rd : Reg} {ea : Word} {upd : State → State} {v : BitVec 32}
    (hupd : ∀ u, Works u (upd u)) (hmis : ¬ Aligned t ea) (hload : CanLoad s t.width (alignedTo t ea) v) :
    loadFrom t rd ea upd s = .fault fault := by
  rw [loadFrom_misaligned hmis hload]
  exact raiseMisaligned_eq_fault (hs.of_works ((setReg_works s rd _).trans (hupd _)))

/-- A store that could be written at the aligned address still stops for its misaligned one. -/
theorem MisalignedFaultsWith.storeTo {t : Transfer} {rs : Reg} {ea : Word} {upd : State → State}
    (hupd : ∀ u, Works u (upd u)) (hmis : ¬ Aligned t ea) (hstore : CanStore s t.width (alignedTo t ea)) :
    storeTo t rs ea upd s = .fault fault := by
  obtain ⟨u, hu⟩ := (memWrite_completes s _ _ (zeroTop (s.reg rs))).mp hstore
  rw [storeTo_misaligned hmis hu]
  exact raiseMisaligned_eq_fault (hs.of_works ((memWrite_works s _ _ _ u hu).trans (hupd u)))

end

/-- Settles O20: each form is a load or a store with an update of its base, and its end raises the fault. -/
theorem misalignedTransferFaults : Obligations.MisalignedTransferFaults := by
  intro s r q imm7 v fault hs
  replace hs : MisalignedFaultsWith fault s := hs
  refine ⟨fun f hf hmis hload => ?_, fun f hf hne hmis hload => ?_, fun f hf hmis hstore => ?_,
    fun f hf hmis hstore => ?_, fun hstep hsp => ⟨fun hload => ?_, fun hstore => ?_⟩⟩
  · exact (exec_plainLoad hf).trans (hs.loadFrom Works.refl hmis hload)
  · exact (exec_modifyingLoad hne hf).trans (hs.loadFrom (fun u => setReg_works u _ _) hmis hload)
  · exact (exec_plainStore hf).trans (hs.storeTo Works.refl hmis hstore)
  · exact (exec_modifyingStore hf).trans (hs.storeTo (fun u => setReg_works u _ _) hmis hstore)
  · exact (exec_ldaLoadSpPreDec s r).trans
      (hs.loadFrom (fun u => setSp_works u _) (spPreDec_not_aligned hstep hsp) hload)
  · exact (exec_ldaStoreSpPreDec s r).trans
      (hs.storeTo (fun u => setSp_works u _) (spPreDec_not_aligned hstep hsp) hstore)

end Sys2Proof.Machine
end

section
/-!
PROOF of O32 to O35. A jump ends in `jumpTo` or `delayedBranch` with its target, which is the number R340 gives; a
conditional jump is one of the ten conditions of R344.
-/

namespace Sys2Proof.Machine

/-! ### The targets as numbers (R340) -/

theorem relTarget_relReg (s : State) (rb : Reg) :
    relTarget s (relReg (s.reg rb)) = relativeTarget s (relRegInt s rb) :=
  relTarget_eq s _ _ (congrArg (fun n : Nat => (n : Int) % 2 ^ 24) (even_toNat (s.reg rb)))

theorem relTarget_rel7 (s : State) (sign7 : BitVec 7) :
    relTarget s (s.ext.rel7 sign7) = relativeTarget s (rel7Int sign7 s.ext) :=
  relTarget_eq s _ _ (rel7_toNat sign7 s.ext)

/-- With at most one `ext` the displacement of the `sign10` forms makes the target of R340. -/
theorem relTarget_rel10 {s : State} (h : AtMostOneExt s) (sign10 : BitVec 10) :
    ∃ d, s.ext.rel10 sign10 = .next d ∧ relTarget s d = relativeTarget s (rel10Int sign10 s.ext) := by
  obtain ⟨d, hd, hvalue⟩ := rel10_next sign10 s h
  exact ⟨d, hd, relTarget_eq s d _ hvalue⟩

/-! ### The jumps -/

section
variable {s : State}

theorem exec_jump {rb : Reg} {imm7 : BitVec 7} {f : BranchForm} (hf : f ∈ jumps s rb imm7) :
    exec f.plain s = .next (jumpTo s f.target) ∧ exec f.delayed s = .next (delayedBranch s .jump true f.target) := by
  simp only [jumps, ← relTarget_relReg, ← imm24_eq] at hf
  fin_cases hf <;> exact ⟨rfl, rfl⟩

theorem exec_jprImm (h : AtMostOneExt s) (sign10 : BitVec 10) :
    let target := relativeTarget s (rel10Int sign10 s.ext)
    exec (.jprImm sign10) s = .next (jumpTo s target) ∧
      exec (.jprDelayedImm sign10) s = .next (delayedBranch s .jump true target) := by
  obtain ⟨d, hd, htarget⟩ := relTarget_rel10 h sign10
  change execJprImm sign10 s = _ ∧ execJprDelayedImm sign10 s = _
  rw [execJprImm, execJprDelayedImm, hd, ← htarget]
  exact ⟨rfl, rfl⟩

end

/-- Settles O32: every form ends in `jumpTo` with its target. -/
theorem jumpResults : Obligations.JumpResults := by
  intro s rb imm7 sign10
  exact ⟨fun f hf => (exec_jump hf).1, fun hext => (exec_jprImm hext sign10).1⟩

/-- Settles O33: every form ends in `delayedBranch` with its target. -/
theorem delayedJumpResults : Obligations.DelayedJumpResults := by
  intro s rb imm7 sign10
  exact ⟨fun f hf => (exec_jump hf).2, fun hext => (exec_jprImm hext sign10).2⟩

/-! ### The conditional jumps (R344) -/

/-- A form executes as the conditional jump of `c`, and is taken where `c` holds of the flags. -/
structure CondJump.JumpsOn (f : CondJump) (c : Cond) (sign7 : BitVec 7) (s : State) : Prop where
  plain : exec f.plain s = .next (condJump c sign7 s)
  delayed : exec f.delayed s = .next (condJumpDelayed c sign7 s)
  taken : c.holds s.psr = f.taken

/-- Each of the ten forms is the jump of its condition; N xor V is 0 where N and V agree. -/
theorem jumpsOn_of_condJump (s : State) (sign7 : BitVec 7) :
    ∀ f ∈ condJumps sign7 s.psr, ∃ c, f.JumpsOn c sign7 s := by
  have hagree : (!(s.psr.n ^^ s.psr.v)) = (s.psr.n == s.psr.v) := Bool.not_not _
  simp only [condJumps, ← hagree, List.forall_mem_cons]
  exact ⟨⟨.gt, rfl, rfl, rfl⟩, ⟨.ge, rfl, rfl, rfl⟩, ⟨.lt, rfl, rfl, rfl⟩, ⟨.le, rfl, rfl, rfl⟩,
    ⟨.ugt, rfl, rfl, rfl⟩, ⟨.uge, rfl, rfl, rfl⟩, ⟨.ult, rfl, rfl, rfl⟩, ⟨.ule, rfl, rfl, rfl⟩,
    ⟨.eq, rfl, rfl, rfl⟩, ⟨.ne, rfl, rfl, rfl⟩, List.forall_mem_nil _⟩

/-- Settles O34: each form is the jump of its condition, taken or going on with the boundary held. -/
theorem conditionalJumpResults : Obligations.ConditionalJumpResults := by
  intro s sign7 f hf
  obtain ⟨c, hplain, -, htaken⟩ := jumpsOn_of_condJump s sign7 f hf
  rw [hplain, condJump, htaken, relTarget_rel7]
  split <;> rfl

/-- Settles O35: each form arms its slot with the target its condition selects. -/
theorem delayedConditionalJumpResults : Obligations.DelayedConditionalJumpResults := by
  intro s sign7 f hf
  obtain ⟨c, -, hdelayed, htaken⟩ := jumpsOn_of_condJump s sign7 f hf
  rw [hdelayed, condJumpDelayed, htaken, relTarget_rel7]
  rfl

end Sys2Proof.Machine
end

section
/-!
PROOF of O36 to O38. A call is a push and then a jump or a delayed branch; a return is a pop, which for `reti` restores
PSR too, and then a jump or a delayed branch.
-/

namespace Sys2Proof.Machine

/-! ### The push of a call (R341) -/

/-- A push where the stack word can be stored is that store and the decrement of SP. -/
theorem push_completes {s : State} (hstore : CanStore s .word (align4 (s.sp - 4))) (v : BitVec 32) :
    ∃ u, StoredAt .word (align4 (s.sp - 4)) v s u ∧ push s v = .next { u with sp := align4 (s.sp - 4) } := by
  obtain ⟨u, hu⟩ := (memWrite_completes s _ _ v).mp hstore
  exact ⟨u, memWrite_storedAt s u _ _ _ hu, (push_eq_next s _ v).mpr ⟨u, hu, rfl⟩⟩

section
variable {s u : State} (target : Word)

/-- The store of the return address, SP lowered, and the jump make a call. -/
theorem StoredAt.callsTo (h : StoredAt .word (align4 (s.sp - 4)) (zeroTop (s.pc + 2)) s u) :
    CallsTo target s (jumpTo { u with sp := align4 (s.sp - 4) } target) where
  pc := rfl
  sp := rfl
  ext := rfl
  psr := h.psr
  regs := fun r _ => congrArg (·.get r) h.regs
  store := h.effect.of_agree rfl ⟨rfl, rfl, rfl, rfl, rfl, rfl, rfl⟩
  environment := { h.environment with }
  hidden := ⟨{ h.hidden.acceptance with }, h.hidden.delay⟩
  draws := { h.draws with }

/-- The store of the address after the slot, SP lowered, and the delayed branch make a delayed call. -/
theorem StoredAt.callsToDelayed (h : StoredAt .word (align4 (s.sp - 4)) (zeroTop (s.pc + 4)) s u) :
    CallsToDelayed target s (delayedBranch { u with sp := align4 (s.sp - 4) } .callOrReturn true target) where
  sp := rfl
  regs := fun r _ => congrArg (·.get r) h.regs
  store := h.effect.of_agree rfl ⟨rfl, rfl, rfl, rfl, rfl, rfl, rfl⟩
  environment := { h.environment with }
  armed := { h.hidden.acceptance with
    delay := rfl
    irqHold := congrArg (max · 1) h.hidden.acceptance.irqHold
    dbgHold := rfl
    psr := h.psr
    advances := ⟨congrArg (· + 2) h.pc, rfl⟩
    draws := { h.draws with } }

end

section
variable {s : State} {i : Instr} {target : Word} (hstore : CanStore s .word (align4 (s.sp - 4)))
include hstore

theorem completes_of_callTo (hexec : exec i s = callTo target s) : Completes i s (CallsTo target s) := by
  obtain ⟨u, hu, hpush⟩ := push_completes hstore (zeroTop (s.pc + 2))
  exact ⟨_, by rw [hexec, callTo, hpush, bindRes_next], hu.callsTo target⟩

theorem completes_of_callToDelayed (hexec : exec i s = callToDelayed target s) :
    Completes i s (CallsToDelayed target s) := by
  obtain ⟨u, hu, hpush⟩ := push_completes hstore (zeroTop (s.pc + 4))
  exact ⟨_, by rw [hexec, callToDelayed, hpush, bindRes_next], hu.callsToDelayed target⟩

end

section
variable {s : State}

theorem exec_call {rb : Reg} {imm7 : BitVec 7} {f : BranchForm} (hf : f ∈ calls s rb imm7) :
    exec f.plain s = callTo f.target s ∧ exec f.delayed s = callToDelayed f.target s := by
  simp only [calls, ← relTarget_relReg, ← imm24_eq] at hf
  fin_cases hf <;> exact ⟨rfl, rfl⟩

theorem exec_callImm (h : AtMostOneExt s) (sign10 : BitVec 10) :
    let target := relativeTarget s (rel10Int sign10 s.ext)
    exec (.callImm sign10) s = callTo target s ∧ exec (.callDelayedImm sign10) s = callToDelayed target s := by
  obtain ⟨d, hd, htarget⟩ := relTarget_rel10 h sign10
  change execCallImm sign10 s = _ ∧ execCallDelayedImm sign10 s = _
  rw [execCallImm, execCallDelayedImm, hd, ← htarget]
  exact ⟨rfl, rfl⟩

end

/-- Settles O36: every form is `callTo` or `callToDelayed` with its target. -/
theorem callResults : Obligations.CallResults := by
  intro s rb imm7 sign10 hstore
  refine ⟨fun f hf => ?forms, fun hext => ?sign10⟩
  case forms =>
    obtain ⟨hplain, hdelayed⟩ := exec_call hf
    exact ⟨completes_of_callTo hstore hplain, completes_of_callToDelayed hstore hdelayed⟩
  case sign10 =>
    obtain ⟨hplain, hdelayed⟩ := exec_callImm hext sign10
    exact ⟨completes_of_callTo hstore hplain, completes_of_callToDelayed hstore hdelayed⟩

/-! ### The pop of a return (R341, R383) -/

section
variable {s : State} {w : BitVec 32} (hload : CanLoad s .word s.sp w)
include hload

theorem pop_of_canLoad : pop s = .next (w, s.setSp (s.sp + 4)) := (pop_eq_next s _).mpr ⟨hload, rfl⟩

theorem popFrame_of_canLoad :
    popFrame s = .next (low24 w, { s.setSp (s.sp + 4) with
      psr := Psr.ofByte (topByte w), ieEffective := (Psr.ofByte (topByte w)).ie, ieLag := 0 }) :=
  (popFrame_next s _).mpr ⟨w, hload, rfl⟩

theorem exec_ret_of_canLoad : exec .ret s = .next (jumpTo (s.setSp (s.sp + 4)) (low24 w)) := by
  change execRet s = _
  rw [execRet, pop_of_canLoad hload, bindRes_next]

theorem exec_retDelayed_of_canLoad :
    exec .retDelayed s = .next (delayedBranch (s.setSp (s.sp + 4)) .callOrReturn true (even (low24 w))) := by
  change execRetDelayed s = _
  rw [execRetDelayed, pop_of_canLoad hload, bindRes_next]

theorem exec_reti_of_canLoad :
    exec .reti s = .next { s with
      pc := even (low24 w)
      sp := align4 (s.sp + 4)
      psr := Psr.ofByte (topByte w)
      ieEffective := (Psr.ofByte (topByte w)).ie
      ieLag := 0
      irqHold := max s.irqHold 1
      ext := .none } := by
  change execReti s = _
  rw [execReti, popFrame_of_canLoad hload]
  rfl

theorem exec_retiDelayed_of_canLoad :
    exec .retiDelayed s = .next { s with
      sp := align4 (s.sp + 4)
      psr := Psr.ofByte (topByte w)
      ieEffective := (Psr.ofByte (topByte w)).ie
      ieLag := 0
      delay := some ⟨even (low24 w), .callOrReturn⟩
      irqHold := 2
      dbgHold := true
      pc := s.pc + 2
      ext := .none } := by
  change execRetiDelayed s = _
  rw [execRetiDelayed, popFrame_of_canLoad hload]
  rfl

end

/-- Settles O37: the target is bits 23:1 of the word that the pop reads. -/
theorem returnResults : Obligations.ReturnResults := by
  intro s w hload target
  have htarget : even (low24 w) = target := even_low24 w
  rw [exec_ret_of_canLoad hload, exec_retDelayed_of_canLoad hload, jumpTo, htarget]
  exact ⟨rfl, rfl⟩

/-- Settles O38: the target is bits 23:1 and PSR the top byte of the word that the pop reads. -/
theorem interruptReturnResults : Obligations.InterruptReturnResults := by
  intro s w hload target p
  have htarget : even (low24 w) = target := even_low24 w
  have hpsr : Psr.ofByte (topByte w) = p := ofByte_topByte w
  rw [exec_reti_of_canLoad hload, exec_retiDelayed_of_canLoad hload, htarget, hpsr]
  exact ⟨rfl, rfl⟩

end Sys2Proof.Machine
end

section
/-!
PROOF of O39 and O40. The entries and returns are known by their laws `softwareInterrupt_next`, `debugEntry_next` and
`debugReturn_next`; what is left is to read the saved words as numbers.
-/

namespace Sys2Proof.Machine

/-! ### `int` and `intl` (R385, R386) -/

theorem softwareInterrupt_inDebugMode {s : State} (hmode : s.dcr.dm = true) (v : BitVec 5)
    (level : Option (BitVec 3)) : softwareInterrupt s v level = .fault .interruptInDebugMode := if_pos hmode

/-- The entry in user mode, with the stack word and the vector as numbers. -/
theorem softwareInterrupt_of_userMode {s u : State} {v : BitVec 5} {w : BitVec 32} (hmode : s.dcr.dm = false)
    (hu : memWrite s .word (align4 (s.sp - 4)) (savedWord s.psr (s.pc + 2)) = .next u)
    (hw : CanLoad u .word (s.ttbr + BitVec.ofNat 24 (4 * v.toNat)) w) (level : Option (BitVec 3)) :
    softwareInterrupt s v level = .next { u with
      sp := align4 (s.sp - 4)
      psr := { s.psr with ie := false, il := level.getD s.psr.il }
      ieEffective := false
      ieLag := 0
      irqHold := max s.irqHold 1
      pc := BitVec.ofNat 24 (w.toNat / 2 * 2)
      ext := .none } := by
  rw [← frameWord_eq] at hu
  rw [← vectorAddress_eq] at hw
  rw [← even_low24]
  exact (softwareInterrupt_next s _ v level).mpr ⟨hmode, u, w, hu, hw, rfl⟩

/-- Settles O39: `int` is the entry that leaves IL and `intl` the one that sets it. -/
theorem softwareInterruptResults : Obligations.SoftwareInterruptResults := by
  intro s vec level
  refine ⟨fun hmode => ?debugMode, fun u w hmode hu hw => ?userMode⟩
  case debugMode =>
    exact ⟨softwareInterrupt_inDebugMode hmode vec none, softwareInterrupt_inDebugMode hmode vec (some level)⟩
  case userMode =>
    exact ⟨memWrite_storedAt s u _ _ _ hu, softwareInterrupt_of_userMode hmode hu hw none,
      softwareInterrupt_of_userMode hmode hu hw (some level)⟩

/-! ### `brk` and `retd` (R387, R388) -/

/-- `brk` in user mode is the debug entry with IE cleared after it. -/
theorem exec_brk_of_userMode {s t : State} (hmode : s.dcr.dm = false) (ht : debugEntry s (s.pc + 2) = .next t) :
    exec .brk s = .next (clearIe t) := by
  change execBrk s = _
  rw [execBrk, hmode, ht]
  rfl

/-- Settles O40: the mode decides, then the entry or the return does what its law says. -/
theorem debugInstructionResults : Obligations.DebugInstructionResults := by
  intro s
  refine ⟨fun hmode => if_pos hmode, fun hmode => if_neg (Bool.eq_false_iff.mp hmode), fun u1 u2 hmode h1 h2 => ?brk,
    fun w w0 hmode hw hw0 => ?retd⟩
  case brk =>
    have hs1 := memWrite_storedAt s u1 _ _ _ h1
    have hs2 := memWrite_storedAt u1 u2 _ _ _ h2
    rw [← frameWord_eq] at h1
    have hentry := (debugEntry_next s _ (s.pc + 2)).mpr ⟨u1, u2, h1, h2, rfl⟩
    refine ⟨hs1, hs2, (exec_brk_of_userMode hmode hentry).trans ?_⟩
    rw [clearIe, hs2.psr.trans hs1.psr]
    rfl
  case retd =>
    have hreturn := (debugReturn_next s _).mpr ⟨w0, w, hw0, hw, rfl⟩
    refine ⟨_, (if_pos hmode).trans hreturn, ?_, fun r hr => ?_, ?_⟩
    · exact (reg_setReg_self s .r0 _).trans (toRegister_eq .address w0)
    · exact reg_setReg_other s .r0 r _ (List.mem_singleton.not.mp hr)
    · rw [even_low24, ofByte_topByte]
      rfl

end Sys2Proof.Machine
end

section
/-!
PROOF of O56 and O57. The word an entry or a call pushes below the core-reserved area is there for the return that
pops it, and the pop brings SP back to where it was.
-/

namespace Sys2Proof.Machine

/-! ### A push and the pop that follows -/

/-- `t` has the word `v` on its stack, on top of the stack of `s`, and the general registers of `s`. -/
structure HasPushed (v : BitVec 32) (s t : State) : Prop where
  word : CanLoad t .word t.sp v
  sp : align4 (t.sp + 4) = s.sp
  regs : t.regs = s.regs
  outside : KeepsMemoryOutside (s.sp - 4).toNat 4 s t

/-- One word below a stack pointer is a stack pointer too. -/
theorem align4_sub_four {a : Word} (h : align4 a = a) : align4 (a - 4) = a - 4 := by
  rw [align4_iff] at h ⊢
  bv_omega

/-- The store of a push, at a stack word below the core-reserved area, with SP lowered to that word. -/
theorem hasPushed_of_memWrite {s u t : State} {v : BitVec 32} (hwf : WellFormedState s)
    (hbelow : align4 (s.sp - 4) < Config.coreAreaBase) (hu : memWrite s .word (align4 (s.sp - 4)) v = .next u)
    (hsp : t.sp = align4 (s.sp - 4)) (hmemMap : t.memMap = u.memMap) (hmem : t.mem = u.mem)
    (hregs : t.regs = u.regs) : HasPushed v s t := by
  have hal := align4_sub_four hwf.spAligned
  have hmultiple : (align4 (s.sp - 4)).toNat % 4 = 0 := (align4_iff _).mp (align4_align4 _)
  have hstored := memWrite_storedAt s u _ _ _ hu
  obtain ⟨hword, -⟩ := memoryReadAfterWrite s u _ v hwf.memory hbelow
  obtain ⟨hread, -⟩ := hword hmultiple hu
  rw [memRead_next, CanLoad, if_neg (BitVec.not_le.mpr hbelow)] at hread
  refine ⟨?_, ?_, hregs.trans hstored.regs, fun x hx => ?_⟩
  · rwa [CanLoad, hsp, if_neg (BitVec.not_le.mpr hbelow), hmemMap, hmem]
  · rw [hsp, hal, BitVec.sub_add_cancel, hwf.spAligned]
  · rw [hmem]
    exact hstored.effect.outside x (by rwa [hal])

/-! ### An entry and `reti` (R383, R385, R386) -/

theorem exec_softwareInterrupt {i : Instr} {v : BitVec 5} {l : BitVec 3} (hi : i = .intImm v ∨ i = .intlImm v l)
    (s : State) : ∃ level, exec i s = softwareInterrupt s v level := by
  obtain rfl | rfl := hi
  · exact ⟨none, rfl⟩
  · exact ⟨some l, rfl⟩

/-- Settles O56: `reti` pops the frame that the entry pushed. -/
theorem interruptThenReturnRestores : Obligations.InterruptThenReturnRestores := by
  intro s t i v l hwf hbelow hi hexec
  obtain ⟨level, hentry⟩ := exec_softwareInterrupt hi s
  rw [hentry] at hexec
  obtain ⟨-, u, w, hu, -, ht⟩ := (softwareInterrupt_next s t v level).mp hexec
  have hpushed : HasPushed (frameWord s.psr (s.pc + 2)) s t := by
    subst ht
    exact hasPushed_of_memWrite hwf hbelow hu rfl rfl rfl rfl
  refine ⟨_, exec_reti_of_canLoad hpushed.word, ?psr, hpushed.sp, ?pc, hpushed.regs, ?ie, hpushed.outside⟩
  case psr | ie => simp only [topByte_frameWord, ofByte_toByte]
  case pc => rw [low24_frameWord, even_add_two hwf.pcEven]

/-! ### A call and `ret` (R341, R381) -/

theorem callTo_next {target : Word} {s t : State} (h : callTo target s = .next t) :
    ∃ u, memWrite s .word (align4 (s.sp - 4)) (zeroTop (s.pc + 2)) = .next u ∧
      t = jumpTo { u with sp := align4 (s.sp - 4) } target := by
  obtain ⟨p, hp, ht⟩ := bindRes_eq_next.mp h
  obtain ⟨u, hu, rfl⟩ := (push_eq_next s p _).mp hp
  cases ht
  exact ⟨u, hu, rfl⟩

/-- A plain call that completes has called some target. -/
theorem exec_plainCall_next {s t : State} {i : Instr} {rb : Reg} {imm7 : BitVec 7} {sign10 : BitVec 10}
    (hi : i ∈ [Instr.callImm sign10, .callReg rb, .callaImm imm7, .callaReg rb]) (h : exec i s = .next t) :
    ∃ target, callTo target s = .next t := by
  simp only [List.mem_cons, List.not_mem_nil, or_false] at hi
  obtain rfl | rfl | rfl | rfl := hi
  · obtain ⟨d, -, hcall⟩ := bindRes_eq_next.mp h
    exact ⟨relTarget s d, hcall⟩
  all_goals exact ⟨_, h⟩

/-- Settles O57: `ret` pops the return address that the call pushed. -/
theorem callThenReturnRestores : Obligations.CallThenReturnRestores := by
  intro s t i rb imm7 sign10 hwf hbelow hi hexec
  obtain ⟨target, hcall⟩ := exec_plainCall_next hi hexec
  obtain ⟨u, hu, ht⟩ := callTo_next hcall
  have hpushed : HasPushed (zeroTop (s.pc + 2)) s t := by
    subst ht
    exact hasPushed_of_memWrite hwf hbelow hu rfl rfl rfl rfl
  have hpsr : t.psr = s.psr := ht ▸ (memWrite_storedAt s u _ _ _ hu).psr
  refine ⟨_, exec_ret_of_canLoad hpushed.word, hpushed.sp, ?pc, hpsr, hpushed.regs⟩
  case pc => rw [jumpTo_pc, low24_zeroTop, even_add_two hwf.pcEven]

end Sys2Proof.Machine
end

section
/-!
PROOF of O41 and O42. The lag of `ei` and `di` and the coprocessor's answers are free values: the lag is in its range
whatever is drawn, and every form of a coprocessor instruction is its command with one of two data.
-/

namespace Sys2Proof.Machine

/-! ### System control (R401 to R405) -/

/-- Every drawn IE_LAG is 1, 2 or 3 (R503, log entry 9). -/
theorem drawnLag_range (draws : Nat) :
    1 ≤ 1 + (Config.freeLag draws).val ∧ 1 + (Config.freeLag draws).val ≤ 3 := by
  have hlt := (Config.freeLag draws).isLt
  omega

/-- Settles O41: each instruction is its end, and the lag of `ei` and `di` is the one drawn. -/
theorem systemControlResults : Obligations.SystemControlResults := by
  intro s
  obtain ⟨hlow, hhigh⟩ := drawnLag_range s.freeCount
  exact ⟨rfl, rfl, rfl, ⟨_, hlow, hhigh, rfl⟩, ⟨_, hlow, hhigh, rfl⟩⟩

/-! ### The coprocessor (R420 to R426) -/

section
variable {s : State} {rd rs : Reg} {imm7 : BitVec 7} {f : CoproForm}

/-- If both forms of a coprocessor instruction run the same operation, each runs it with its data 1 as a number. -/
theorem exec_coproForm {reg : Reg → Reg → Instr} {imm : Reg → BitVec 7 → Instr}
    {run : Reg → Word → State → State} (hf : f ∈ coproForms reg imm s rd rs imm7)
    (hreg : exec (reg rd rs) s = .next (run rd (s.reg rs) s))
    (himm : exec (imm rd imm7) s = .next (run rd (s.ext.imm24 imm7) s)) :
    exec f.instr s = .next (run rd f.data1 s) := by
  simp only [coproForms, ← imm24_eq, List.mem_cons, List.not_mem_nil, or_false] at hf
  obtain rfl | rfl := hf
  · exact hreg
  · exact himm

theorem exec_ldcw (hf : f ∈ coproForms .ldcwRR .ldcwImm s rd rs imm7) :
    exec f.instr s = .next (coproWrite rd f.data1 s) := exec_coproForm hf rfl rfl

theorem exec_ldcf (hf : f ∈ coproForms .ldcfRR .ldcfImm s rd rs imm7) :
    exec f.instr s = .next (coproFlagsOnly rd f.data1 s) := exec_coproForm hf rfl rfl

theorem exec_ldca (hf : f ∈ coproForms .ldcaRR .ldcaImm s rd rs imm7) :
    exec f.instr s = .next (coproAnswer rd f.data1 s) := exec_coproForm hf rfl rfl

end

/-- Settles O42: `ld.cw` is the command and the ordinary end, `ld.cf` writes PSR too and `ld.ca` the register too. -/
theorem coprocessorResults : Obligations.CoprocessorResults := by
  intro s rd rs imm7
  refine ⟨fun f hf => exec_ldcw hf, fun f hf => ?flags, fun f hf => ?answer⟩
  case flags =>
    rw [exec_ldcf hf, coproFlagsOnly, withCopro_eq]
    rfl
  case answer =>
    refine ⟨_, exec_ldca hf, reg_setReg_self s rd _, fun r hr => ?_, ?_⟩
    · exact reg_setReg_other s rd r _ (List.mem_singleton.not.mp hr)
    · rw [coproAnswer, withCopro_eq]
      rfl

end Sys2Proof.Machine
end

section
/-!
PROOF of O43 and O44. The entries are known by their laws `interruptEntry_next` and `debugEntry_next`; what is left is
to read the saved words and the vector as numbers.
-/

namespace Sys2Proof.Machine

/-- Settles O43: the law of the entry, with IL by the kind of the request. -/
theorem interruptEntryEffect : Obligations.InterruptEntryEffect := by
  intro s u kind v ret w hu hw
  refine ⟨memWrite_storedAt s u _ _ _ hu, ?_⟩
  rw [← frameWord_eq] at hu
  rw [← vectorAddress_eq] at hw
  rw [(interruptEntry_next s _ kind v ret).mpr ⟨u, w, hu, hw, rfl⟩, even_low24]
  cases kind with
  | misaligned | nmi | maskable => rfl

/-- Settles O44: the law of the entry. -/
theorem debugEntryEffect : Obligations.DebugEntryEffect := by
  intro s u1 u2 ret h1 h2
  refine ⟨memWrite_storedAt s u1 _ _ _ h1, memWrite_storedAt u1 u2 _ _ _ h2, ?_⟩
  rw [← frameWord_eq] at h1
  exact (debugEntry_next s _ ret).mpr ⟨u1, u2, h1, h2, rfl⟩

end Sys2Proof.Machine
end

section
/-!
PROOF of O45 and O53. A boundary accepts a debug request, else an NMI, else a maskable request: `acceptedRequest` is
given its answer in each case of that order, and both statements are read off the cases.
-/

namespace Sys2Proof.Machine

/-! ### What lets a request be accepted (R435) -/

/-- A debug request is accepted: not held, in user mode, and latched or asked for by DR. -/
def DebugAcceptable (s : State) (latch : Bool) : Prop :=
  s.dbgHold = false ∧ s.dcr.dm = false ∧ (latch = true ∨ s.dcr.dr = true)

/-- Interrupts are not held, and the mode is user mode. -/
def InterruptsOpen (s : State) : Prop := s.irqHold = 0 ∧ s.dcr.dm = false

/-- An NMI is presented and may be accepted. -/
def NmiAcceptable (inp : Inputs) (s : State) : Prop := InterruptsOpen s ∧ inp.nmi = true ∧ s.nmiArmed = true

/-- The maskable request `m` may be accepted. -/
def MaskableAcceptable (s : State) (m : MaskableRequest) : Prop :=
  InterruptsOpen s ∧ s.ieEffective = true ∧ s.psr.il.toNat < m.level.toNat

/-! The conditions of `acceptedRequest`, each as its proposition. -/

theorem debugAcceptable_iff (s : State) (latch : Bool) :
    (!s.dbgHold && !s.dcr.dm && (latch || s.dcr.dr)) = true ↔ DebugAcceptable s latch := by
  simp [DebugAcceptable, and_assoc]

theorem nmiAcceptable_iff (inp : Inputs) (s : State) :
    (decide (s.irqHold = 0) && !s.dcr.dm && inp.nmi && s.nmiArmed) = true ↔ NmiAcceptable inp s := by
  simp [NmiAcceptable, InterruptsOpen, and_assoc]

theorem maskableAcceptable_iff (s : State) (m : MaskableRequest) :
    (decide (s.irqHold = 0) && !s.dcr.dm && maskableAccepted s m) = true ↔ MaskableAcceptable s m := by
  simp [MaskableAcceptable, InterruptsOpen, maskableAccepted, BitVec.lt_def]

theorem instructionBreak_iff (s : State) :
    instructionBreak s = true ↔ s.dcr.dm = false ∧
      (s.dcr.ibe0 = true ∧ s.pc = s.ibar0 ∨ s.dcr.ibe1 = true ∧ s.pc = s.ibar1) := by
  simp [instructionBreak]

/-! ### The accepted request in the priority order of R432 -/

section
variable {inp : Inputs} {s : State} {latch : Bool}

theorem acceptedRequest_of_debug (h : DebugAcceptable s latch) : acceptedRequest inp s latch = some .debug :=
  if_pos ((debugAcceptable_iff s latch).mpr h)

theorem acceptedRequest_of_nmi (hdebug : ¬ DebugAcceptable s latch) (h : NmiAcceptable inp s) :
    acceptedRequest inp s latch = some .nmi :=
  (if_neg ((debugAcceptable_iff s latch).not.mpr hdebug)).trans (if_pos ((nmiAcceptable_iff inp s).mpr h))

/-- With neither of the two above it, the request presented is accepted if it may be. -/
theorem acceptedRequest_of_neither (hdebug : ¬ DebugAcceptable s latch) (hnmi : ¬ NmiAcceptable inp s) (r : Request) :
    acceptedRequest inp s latch = some r ↔
      ∃ m, inp.maskable = some m ∧ MaskableAcceptable s m ∧ .maskable m.level m.vector = r := by
  simp only [acceptedRequest, if_neg ((debugAcceptable_iff s latch).not.mpr hdebug),
    if_neg ((nmiAcceptable_iff inp s).not.mpr hnmi)]
  cases inp.maskable with
  | none => simp
  | some m =>
    rw [Option.ite_none_right_eq_some, maskableAcceptable_iff]
    simp

theorem acceptedRequest_eq_debug_iff :
    acceptedRequest inp s latch = some .debug ↔ DebugAcceptable s latch := by
  by_cases hdebug : DebugAcceptable s latch
  · simp [acceptedRequest_of_debug hdebug, hdebug]
  by_cases hnmi : NmiAcceptable inp s
  · simp [acceptedRequest_of_nmi hdebug hnmi, hdebug]
  · simp [acceptedRequest_of_neither hdebug hnmi, hdebug]

theorem acceptedRequest_eq_nmi_iff :
    acceptedRequest inp s latch = some .nmi ↔ ¬ DebugAcceptable s latch ∧ NmiAcceptable inp s := by
  by_cases hdebug : DebugAcceptable s latch
  · simp [acceptedRequest_of_debug hdebug, hdebug]
  by_cases hnmi : NmiAcceptable inp s
  · simp [acceptedRequest_of_nmi hdebug hnmi, hdebug, hnmi]
  · simp [acceptedRequest_of_neither hdebug hnmi, hnmi]

theorem acceptedRequest_eq_maskable_iff (level : BitVec 3) (vec : BitVec 5) :
    acceptedRequest inp s latch = some (.maskable level vec) ↔
      ¬ DebugAcceptable s latch ∧ ¬ NmiAcceptable inp s ∧ inp.maskable = some ⟨level, vec⟩ ∧
        MaskableAcceptable s ⟨level, vec⟩ := by
  by_cases hdebug : DebugAcceptable s latch
  · simp [acceptedRequest_of_debug hdebug, hdebug]
  by_cases hnmi : NmiAcceptable inp s
  · simp [acceptedRequest_of_nmi hdebug hnmi, hnmi]
  rw [acceptedRequest_of_neither hdebug hnmi]
  constructor
  · rintro ⟨m, hpresented, hm, heq⟩
    cases heq
    exact ⟨hdebug, hnmi, hpresented, hm⟩
  · rintro ⟨-, -, hpresented, hm⟩
    exact ⟨_, hpresented, hm, rfl⟩

end

/-! ### The boundary -/

/-- The latch that the boundary's selection sees (R435). -/
def latchAtBoundary (s : State) : Bool := s.dbgLatch || instructionBreak s

theorem selectRequest_request (inp : Inputs) (s : State) :
    (selectRequest inp s).1 = acceptedRequest inp s (latchAtBoundary s) := rfl

theorem latchAtBoundary_iff (s : State) :
    latchAtBoundary s = true ↔ s.dbgLatch = true ∨ s.dcr.dm = false ∧
      (s.dcr.ibe0 = true ∧ s.pc = s.ibar0 ∨ s.dcr.ibe1 = true ∧ s.pc = s.ibar1) := by
  rw [latchAtBoundary, Bool.or_eq_true, instructionBreak_iff]

/-- Settles O45: each request in its case of the priority order, with the latch as the boundary leaves it. -/
theorem boundaryRequestPriority : Obligations.BoundaryRequestPriority := by
  intro inp s hit debug irqOk nmi r
  have hrequest : r.1 = acceptedRequest inp s (latchAtBoundary s) := selectRequest_request inp s
  have hdebug : DebugAcceptable s (latchAtBoundary s) ↔ debug := by
    rw [DebugAcceptable, latchAtBoundary_iff, or_assoc]
  rw [hrequest]
  refine ⟨?_, ?_, fun level vec => ?_, latchAtBoundary_iff s, rfl⟩
  · exact acceptedRequest_eq_debug_iff.trans hdebug
  · exact acceptedRequest_eq_nmi_iff.trans (and_congr_left' hdebug.not)
  · exact (acceptedRequest_eq_maskable_iff level vec).trans (and_congr hdebug.not (and_congr_right' and_left_comm))

/-- While every request but reset is held, none is accepted (R450). -/
theorem selectRequest_of_held {s : State} (h : RequestsHeld s) (inp : Inputs) : (selectRequest inp s).1 = none := by
  obtain ⟨hirq, hdbg⟩ := h
  have hclosed : ¬ InterruptsOpen s := fun ⟨hzero, _⟩ => by omega
  have hdebug : ¬ DebugAcceptable s (latchAtBoundary s) := fun ⟨hopen, _⟩ => by simp [hdbg] at hopen
  have hnmi : ¬ NmiAcceptable inp s := fun ⟨hopen, _⟩ => hclosed hopen
  rw [selectRequest_request, Option.eq_none_iff_forall_ne_some]
  intro r hr
  obtain ⟨m, -, ⟨hopen, -⟩, -⟩ := (acceptedRequest_of_neither hdebug hnmi r).mp hr
  exact hclosed hopen

/-- Settles O53: the invariant holds what is pending, and the inputs do not lift the hold. -/
theorem prefixAndSlotAreNotInterrupted : Obligations.PrefixAndSlotAreNotInterrupted := by
  intro s inp hwf hpending
  have hheld : RequestsHeld (applyInputs inp (consumeInputs s)) := hwf.settled.held hpending
  exact selectRequest_of_held hheld inp

end Sys2Proof.Machine
end

section
/-!
PROOF of O46, O48, O49 and O59. A step is the reset sequence, a wait, or the boundary of the state that has taken the
inputs, and each statement is about one of these three.
-/

namespace Sys2Proof.Machine

/-! ### The three ways of a step (R430 A to C) -/

section
variable {s : State}

theorem step_of_reset (hreset : (inputsNow s).reset = true) : step s = resetSequence (consumeInputs s) :=
  if_pos hreset

theorem step_of_wait (hreset : (inputsNow s).reset = false) (hwait : ¬ GoesOn s (inputsNow s)) :
    step s = .next (consumeInputs s) :=
  (if_neg (Bool.eq_false_iff.mp hreset)).trans (if_neg ((awake_iff (consumeInputs s) _).not.mpr hwait))

theorem step_of_goesOn (hreset : (inputsNow s).reset = false) (hgoes : GoesOn s (inputsNow s)) :
    step s = boundary (inputsNow s) (applyInputs (inputsNow s) (consumeInputs s)) :=
  (if_neg (Bool.eq_false_iff.mp hreset)).trans (if_pos ((awake_iff (consumeInputs s) _).mpr hgoes))

end

/-- Settles O48: a step that waits consumes the inputs and nothing else. -/
theorem powerDownWaits : Obligations.PowerDownWaits :=
  fun _ hreset hwait => step_of_wait hreset hwait

/-! ### Waking and accepting (R430 B and C) -/

theorem boundary_of_request {inp : Inputs} {s b : State} {r : Request} (h : selectRequest inp s = (some r, b)) :
    boundary inp s = acceptRequest r b := by
  rw [boundary, h]

/-- Selecting a request leaves PC at the next instruction (R441). -/
theorem selectRequest_pc (inp : Inputs) (s : State) : (selectRequest inp s).2.pc = s.pc := rfl

/-- Settles O46: the boundary is the entry of the request, and the address saved is the PC before the step. -/
theorem stepAcceptsRequest : Obligations.StepAcceptsRequest := by
  intro s b r hreset hawake hselect
  have hpc : b.pc = s.pc := by
    have h := selectRequest_pc (inputsNow s) (applyInputs (inputsNow s) (consumeInputs s))
    rwa [hselect] at h
  rw [step_of_goesOn hreset ((awake_iff s _).mp hawake), boundary_of_request hselect, ← hpc]
  cases r with
  | debug | nmi | maskable => rfl

/-- Taking the inputs, with what the serial link leaves in SSR and SDR (R39, R40, D31). -/
theorem applyInputs_of_driven {inp : Inputs} {s : State} {tdbe rdbf : Bool} {data : Byte}
    (htdbe : inp.serialTdbe.getD s.ssr.tdbe = tdbe) (hrdbf : inp.serialRdbf.getD s.ssr.rdbf = rdbf)
    (hdata : inp.serialData.getD s.sdr = data) :
    applyInputs inp s = { s with
      runState := .running
      dcr := { s.dcr with dr := s.dcr.dr || inp.debugRequest }
      ssr := { s.ssr with tdbe := tdbe, rdbf := rdbf }
      sdr := data } := by
  subst htdbe hrdbf hdata
  rfl

/-- Settles O59: taking the inputs is `applyInputs`, a field the link does not drive kept, and the rest is the
boundary. -/
theorem wakeAndInputs : Obligations.WakeAndInputs := by
  intro s hreset hgoes inp u
  have htaken : applyInputs inp (consumeInputs s) = u := by
    refine applyInputs_of_driven (s := consumeInputs s) ?tdbe ?rdbf ?sdr
    case tdbe => cases inp.serialTdbe with | none | some => rfl
    case rdbf => cases inp.serialRdbf with | none | some => rfl
    case sdr => cases inp.serialData with | none | some => rfl
  refine ⟨htaken, ?_⟩
  rw [step_of_goesOn hreset hgoes, htaken]
  rfl

/-! ### Reset (R490) -/

/-- A load below the core-reserved area sees memory and its map only. -/
theorem CanLoad.of_sameMemory {s t : State} {w : Width} {a : Word} {v : BitVec 32} (h : CanLoad s w a v)
    (hbelow : a < Config.coreAreaBase) (hmem : t.mem = s.mem) (hmap : t.memMap = s.memMap) : CanLoad t w a v := by
  rw [CanLoad, if_neg (BitVec.not_le.mpr hbelow)] at h ⊢
  rwa [hmem, hmap]

/-- A reset puts PC at the word the vector table has at entry 0 (R436, R490). -/
theorem resetSequence_of_canLoad {s : State} {w : BitVec 32} (hbelow : s.ttbr < Config.coreAreaBase)
    (hload : CanLoad s .word s.ttbr w) :
    resetSequence s = .next { clearedByReset s with pc := BitVec.ofNat 24 (w.toNat / 2 * 2) } := by
  have hcleared : CanLoad (clearedByReset s) .word s.ttbr w := hload.of_sameMemory hbelow rfl rfl
  have hentry : vectorAddress (clearedByReset s) 0 = s.ttbr := BitVec.add_zero s.ttbr
  rw [← hentry] at hcleared
  rw [resetSequence, (vectorRead_next _ 0 _).mpr ⟨w, hcleared, rfl⟩, even_low24]
  rfl

/-- Settles O49: the step is the reset sequence, and the inputs are no part of what it reads. -/
theorem resetSequenceEffect : Obligations.ResetSequenceEffect := by
  intro s w hreset hbelow hload
  have hconsumed : CanLoad (consumeInputs s) .word s.ttbr w := hload.of_sameMemory hbelow rfl rfl
  have hpsr : psrOfNat 0x00 = ⟨0, false, false, false, false, false⟩ := by decide
  rw [step_of_reset hreset, resetSequence_of_canLoad (s := consumeInputs s) hbelow hconsumed, hpsr]
  rfl

end Sys2Proof.Machine
end

section
/-!
PROOF of O47 and O58. A step that runs an instruction is a fetch and the run of what it decodes to (`step_runsNext`):
the fetch names the instruction or stops the step, and the run is told apart by the delay slot.
-/

namespace Sys2Proof.Machine

/-! ### Where a fetch stops (R62, R67, R430 D) -/

theorem fetch_without_firmware {s : State} (hcore : Config.coreAreaBase ≤ s.pc) (hfw : s.debugFw = none) :
    fetch s = .refused .enteredDebugFirmware := by
  rw [fetch, if_pos hcore, hfw]

/-- A fetch below the core-reserved area stops as the check of its first byte that may not be read. -/
theorem fetch_stops {s : State} {i : Nat} {r : Res Unit} (hbelow : s.pc < Config.coreAreaBase) (hi : i < 2)
    (hbefore : ∀ j < i, kindAt s.memMap (s.pc.toNat + j) = some .ram ∨ kindAt s.memMap (s.pc.toNat + j) = some .rom)
    (hbyte : readable s (s.pc.toNat + i) = r) (hstop : ∀ u, r ≠ .next u) :
    fetch s = bindRes r fun _ => .next (codeAt s.mem s.pc) := by
  rw [fetch, if_neg (BitVec.not_le.mpr hbelow), checkBytes_stops _ _ i _ r hi
    (fun j hj => (readable_next s _).mpr (hbefore j hj)) hbyte hstop]

/-- Nothing runs after a fetch that stops. -/
theorem runNext_of_fetch_refused {s : State} {e : Refusal} (h : fetch s = .refused e) : runNext s = .refused e := by
  rw [runNext, fetchInstr, h]
  rfl

theorem runNext_of_fetch_fault {s : State} {e : Fault} (h : fetch s = .fault e) : runNext s = .fault e :=
  runNext_fetch_fault (by rw [fetchInstr, h]; rfl)

/-- Settles O58: the stop of the fetch is the stop of the step. -/
theorem fetchStops : Obligations.FetchStops := by
  intro s hruns
  rw [step_runsNext s hruns]
  refine ⟨fun hcore hfw => runNext_of_fetch_refused (fetch_without_firmware hcore hfw),
    fun i hi hbelow hbefore => ⟨fun hk => ?unmapped, fun hk => ?device⟩⟩
  case unmapped =>
    exact runNext_of_fetch_fault
      (fetch_stops (r := .fault .unmappedRead) hbelow hi hbefore (by rw [readable, hk]) nofun)
  case device =>
    exact runNext_of_fetch_refused
      (fetch_stops (r := .refused .deviceAccess) hbelow hi hbefore (by rw [readable, hk]) nofun)

/-! ### The run of an instruction, outside a slot and in one (R342, R343) -/

section
variable {i : Instr} {s : State}

theorem fetchInstr_of_codeAtPc (h : CodeAtPc i s) : fetchInstr s = .next i := by
  obtain ⟨m, hfetch, hbytes⟩ := h
  rw [fetchInstr, fetch_reads m s hfetch, bindRes_next, (decodeBytes_code m s.pc i).mp hbytes]

/-- With an instruction at PC the rest of the step is its run and the single-step request. -/
theorem runNext_of_codeAtPc (h : CodeAtPc i s) :
    runNext s = bindRes (runInstr i s) fun t => .next (singleStep s.dcr.dm t) := by
  rw [runNext, fetchInstr_of_codeAtPc h, bindRes_next]

theorem runInstr_outsideSlot (hdelay : s.delay = none) : runInstr i s = exec i s := by
  rw [runInstr, hdelay]

theorem runInstr_inSlot {d : DelayPending} (hdelay : s.delay = some d) (hi : ¬ ForbiddenInSlot i) :
    runInstr i s = bindRes (exec i (enterSlot s)) fun t => .next (leaveSlot d t) := by
  have hallowed : allowedInSlot i = true := by
    rwa [← allowedInSlot_eq_false_iff, Bool.not_eq_false] at hi
  simp only [runInstr, hdelay, hallowed, if_true]

theorem runInstr_forbidden {d : DelayPending} (hdelay : s.delay = some d) (hi : ForbiddenInSlot i) :
    runInstr i s = .fault .illegalDelaySlot := by
  simp only [runInstr, hdelay, (allowedInSlot_eq_false_iff i).mpr hi, Bool.false_eq_true, if_false]

end

/-- Settles O47: the step is the run of the instruction at PC, by whether a delayed branch is pending and, in its slot,
by the list of R343. -/
theorem stepRunsDecodedInstruction : Obligations.StepRunsDecodedInstruction := by
  intro i s hruns hcode b latched
  rw [step_runsNext s hruns, runNext_of_codeAtPc hcode]
  refine ⟨fun hdelay => ?outsideSlot, fun d hdelay hi => ?inSlot, fun d hdelay hi => ?forbidden⟩
  case outsideSlot =>
    rw [runInstr_outsideSlot hdelay]
    cases exec i b with
    | next | fault | refused => rfl
  case inSlot =>
    rw [runInstr_inSlot hdelay hi, enterSlot]
    cases exec i { b with ext := .none } with
    | next | fault | refused => rfl
  case forbidden =>
    rw [runInstr_forbidden hdelay hi, bindRes_fault]

end Sys2Proof.Machine
end
